-- ==== Sys2Proof/Word.lean ====
section
/-! DEFINITION. The machine's word types (R7: all values are unsigned bit strings). -/

namespace Sys2Proof

/-- The unit of every transfer (R30). -/
abbrev Byte := BitVec 8

/-- A code, a length, a counter or the cursor (R5 CODE_W, LEN_W; R13 to R15). -/
abbrev Half := BitVec 16

/-- The `arg` of a command, the `value` of a response (R59, R66). -/
abbrev Word := BitVec 32

/-- One word of the command or of the response port (R25, R59, R66). -/
abbrev PortWord := BitVec 36

end Sys2Proof
end

