-- ==== Sys2Proof/Config.lean ====
section
/-! DEFINITION. What the spec leaves open, each an opaque constant: no proof can see its value. -/

namespace Sys2Proof

/-- The agents inside the block (R170). -/
inductive Agent where
  /-- the command executor -/
  | cmd
  /-- the builder's sequencer -/
  | txseq
  /-- the parser's sequencer -/
  | rxseq
  deriving DecidableEq, Repr, Inhabited

/-- HDR_EARLY_ABORT (R6, R112, U1, C3): `false` checks the header after three tokens, `true` as each byte arrives.
The spec leaves it OPEN (default 0), so every claim holds for both. (log 1; safe) -/
opaque Config.hdrEarlyAbort : Bool

/-- Which inside agent is offered the next step when the agenda names none: the n-th free choice (U9).
(log 3, DESIGN CHOICE; safe) -/
opaque Config.arbiter : Nat → Agent

/-- What RX_BUF holds at an index that nothing has written since the given reset (R21, R178, U2).
(log 2, DESIGN CHOICE; safe) -/
opaque Config.unwrittenByte : (epoch : Nat) → (index : Nat) → Byte

end Sys2Proof
end

