-- ==== Sys2Proof/Machine/State.lean ====
section
/-! DEFINITION. Everything the spec gives the machine (10_state.md), as plain data, and the reset state (R29, R175). -/

namespace Sys2Proof.Machine

/-- TX_PHASE (R12): the frame byte TXSEQ handles next. -/
inductive TxPhase where
  | idle | hdr0 | hdr1 | hdr2 | flag | codeLo | codeHi | lenLo | lenHi | payload | crc
  deriving DecidableEq, Repr

/-- RX_PHASE (R12): the frame byte RXSEQ handles next. -/
inductive RxPhase where
  | idle | hdr0 | hdr1 | hdr2 | flag | codeLo | codeHi | lenLo | lenHi | payload | crc
  deriving DecidableEq, Repr

/-- RX_RESULT (R16); all four 2-bit values have a name. -/
inductive ParseResult where
  | none | frame | invalidPacket | transportError
  deriving DecidableEq, Repr

/-- ERR_CAUSE (R17); the values 5 to 7 are never written (U4), so the type leaves them out. (log 10) -/
inductive ErrCause where
  | noCause | badStart | badVersion | badDirection | badChecksum
  deriving DecidableEq, Repr

/-- A token of `rxs` (R22): a byte read, or a read that returned an error. -/
inductive Token where
  | byte (b : Byte)
  | ioerr (e : Byte)
  deriving DecidableEq, Repr

/-- RX_BUF (R21) as (index, byte) pairs, indexes strictly rising. An index that is not listed has been written by
nothing since reset and holds no value of its own (R178). -/
abbrev Memory := List Host.Cell

/-- The canonical form: indexes strictly rising and inside RX_BUF (R21). Every listed entry counts, since an unlisted
index reads as no value. -/
abbrev Memory.wf (m : Memory) : Prop :=
  m.Pairwise (fun a b => a.1 < b.1) ∧ ∀ c ∈ m, c.1 < 65535

/-- The builder's registers (R11 to R13). -/
structure TxRegs where
  /-- TX_PHASE -/
  phase : TxPhase
  /-- TX_CODE -/
  code : Half
  /-- TX_LEN -/
  len : Half
  /-- TX_CNT -/
  cnt : Half
  /-- TX_CRC -/
  crc : Byte
  deriving DecidableEq, Repr

/-- The parser's registers and the receive buffer (R11, R12, R14 to R19, R21). -/
structure RxRegs where
  /-- RX_PHASE -/
  phase : RxPhase
  /-- RX_H0 -/
  h0 : Byte
  /-- RX_H1 -/
  h1 : Byte
  /-- RX_CODE -/
  code : Half
  /-- RX_LEN -/
  len : Half
  /-- RX_CNT -/
  cnt : Half
  /-- RX_CRC -/
  crc : Byte
  /-- RX_CURSOR -/
  cursor : Half
  /-- RX_RESULT -/
  result : ParseResult
  /-- ERR_CAUSE -/
  cause : ErrCause
  /-- ERR_CRC_COMPUTED -/
  errComputed : Byte
  /-- ERR_CRC_RECEIVED -/
  errReceived : Byte
  /-- ERR_IO -/
  errIo : Byte
  /-- RX_BUF -/
  buf : Memory
  deriving DecidableEq, Repr

/-- What the environment may do in one step (R170: HOST, SRC, SINK; R175, U16: reset). -/
inductive EnvEvent where
  /-- HOST puts a word on `cmd` -/
  | hostCommand (w : PortWord)
  /-- HOST puts a byte on `txp` -/
  | hostPayload (b : Byte)
  /-- HOST removes a word from `rsp` -/
  | hostTakeResponse
  /-- SRC appends a token to `rxs` -/
  | sourceToken (t : Token)
  /-- SINK removes a byte from `txs` -/
  | sinkTake
  /-- SINK becomes ready or not ready to accept a byte (R36) -/
  | sinkReady (ready : Bool)
  /-- `rst` is asserted -/
  | reset
  deriving DecidableEq, Repr

/-- One entry of the agenda: whose step is next. -/
inductive Turn where
  /-- one step of an agent inside the block -/
  | agent (a : Agent)
  /-- RXSEQ takes the whole wire frame at the head of `rxs` with no other agent in between (log 5) -/
  | frame
  /-- one step of the environment -/
  | env (e : EnvEvent)
  deriving DecidableEq, Repr

/-- The machine. -/
structure State where
  /-- CRC_ACC (R11) -/
  crcAcc : Byte
  /-- the builder (R11 to R13) -/
  tx : TxRegs
  /-- the parser and RX_BUF (R11, R12, R14 to R19, R21) -/
  rx : RxRegs
  /-- `cmd`: command words, head first (R25) -/
  cmd : List PortWord
  /-- `rsp`: response words, head first (R25) -/
  rsp : List PortWord
  /-- `rxs`: tokens, head first (R22) -/
  rxs : List Token
  /-- `txp`: payload bytes, head first (R24) -/
  txp : List Byte
  /-- `txs`: frame bytes with their `last` mark, head first (R23) -/
  txs : List (Byte × Bool)
  /-- SINK can accept a byte (R36, R170); the environment's (log 6) -/
  sinkReady : Bool
  /-- the MODEL's own: whose steps come next, head first (log 3) -/
  agenda : List Turn
  /-- the MODEL's own: how many free scheduling choices have been used (log 3) -/
  choices : Nat
  /-- the MODEL's own: how many times `rst` was asserted, which selects the free contents of RX_BUF (log 2) -/
  bufEpoch : Nat
  deriving DecidableEq, Repr

/-- Why the machine stops. -/
inductive Fault where
  /-- RXSEQ would write RX_BUF at index 65535, which does not exist (R21, R119). Only a state outside R28 item 4
  (RX_CNT not below RX_LEN in R_PAYLOAD) gets there. Safe: the model stops. (log 9) -/
  | rxBufIndex (index : Nat)
  deriving DecidableEq, Repr

/-- Why an instruction is turned away. -/
inductive Refusal where
  /-- An arm of `exec` without a meaning. No arm is one. Safe: nothing follows from it. -/
  | notModelled (mnemonic : String)
  deriving DecidableEq, Repr

/-- Every builder register at its value in R29. -/
def TxRegs.reset : TxRegs :=
  { phase := .idle, code := 0, len := 0, cnt := 0, crc := 0 }

/-- Every parser register at its value in R29; RX_BUF with nothing written (R178). -/
def RxRegs.reset : RxRegs :=
  { phase := .idle, h0 := 0, h1 := 0, code := 0, len := 0, cnt := 0, crc := 0, cursor := 0, result := .none,
    cause := .noCause, errComputed := 0, errReceived := 0, errIo := 0, buf := [] }

/-- The machine right after reset (R29, R175), the five queues empty (R176, U14). -/
def State.reset : State :=
  { crcAcc := 0, tx := TxRegs.reset, rx := RxRegs.reset, cmd := [], rsp := [], rxs := [], txp := [], txs := [],
    sinkReady := true, agenda := [], choices := 0, bufEpoch := 0 }

end Sys2Proof.Machine
end

