-- ==== Sys2Proof/Machine/Params.lean ====
section
/-! DEFINITION. The parameters the spec fixes (R5, R6). -/

namespace Sys2Proof.Machine

/-- POLY (R5). -/
def poly : Byte := 0xD5

/-- CRC_INIT (R5). -/
def crcInit : Byte := 0x00

/-- SOF, `$` (R5): frame byte 0. -/
def sof : Byte := 0x24

/-- VER, `X` (R5): frame byte 1. -/
def ver : Byte := 0x58

/-- DIR_REQ, `<` (R5): frame byte 2, host to device. -/
def dirReq : Byte := 0x3C

/-- DIR_RSP, `>` (R5): frame byte 2, device to host. (log 13: the spec marks the ASCII code as general knowledge, G2) -/
def dirRsp : Byte := 0x3E

/-- FLAG_TX (R5): the flag byte the builder emits. -/
def flagTx : Byte := 0x00

/-- RX_BUF_BYTES (R6): RX_BUF has the indexes 0 to 65534. -/
def rxBufBytes : Nat := 65535

end Sys2Proof.Machine
end

