-- ==== Sys2Proof/Machine/Crc.lean ====
section
/-! DEFINITION. The checksum function (40_crc.md R75 to R79). -/

namespace Sys2Proof.Machine

/-- R76: one iteration; the test is on bit 7 before the shift. -/
def crc8Shift (t : Byte) : Byte :=
  if t.getLsbD 7 then (t <<< 1) ^^^ poly else t <<< 1

/-- `n` iterations of R76. -/
def crc8Shifts : Nat → Byte → Byte
  | 0, t => t
  | n + 1, t => crc8Shifts n (crc8Shift t)

/-- R75: XOR the byte in, then eight iterations. -/
def crc8Update (s b : Byte) : Byte :=
  crc8Shifts 8 (s ^^^ b)

/-- R77: the fold from a given state. -/
def crc8From (s : Byte) (bytes : List Byte) : Byte :=
  bytes.foldl crc8Update s

/-- R77: the fold from CRC_INIT. -/
def crc8 (bytes : List Byte) : Byte :=
  crc8From crcInit bytes

end Sys2Proof.Machine
end

