-- ==== Sys2Proof/Machine/Wire.lean ====
section
/-! DEFINITION. Byte order and the wire frame (20_memory.md R31, 30_encoding.md R50 to R55, 41_frame_build.md R90),
and the scalar layouts of an outgoing payload (43_payload_access.md R141 to R143). -/

namespace Sys2Proof.Machine

/-- `v[7:0]` of a 16-bit value. -/
def loByte (v : Half) : Byte := v.extractLsb' 0 8

/-- `v[15:8]` of a 16-bit value. -/
def hiByte (v : Half) : Byte := v.extractLsb' 8 8

/-- The two bytes of a 16-bit value in order, low first (R31). -/
def bytesOfHalf (v : Half) : List Byte := [loByte v, hiByte v]

/-- Little-endian assembly of any number of bytes, the first byte in the least significant place (R31). -/
def assembleLE : List Byte → Nat
  | [] => 0
  | b :: bs => b.toNat + 256 * assembleLE bs

/-- `{b1, b0}` (R31, R52). -/
def halfOfBytes (b0 b1 : Byte) : Half := b1 ++ b0

/-- The first five bytes of the checksummed range, frame offsets 3 to 7 (R54). -/
def bodyHead (flag : Byte) (code len : Half) : List Byte :=
  flag :: (bytesOfHalf code ++ bytesOfHalf len)

/-- The checksummed range, frame offsets 3 to 7+N (R54). -/
def frameBody (flag : Byte) (code : Half) (payload : List Byte) : List Byte :=
  bodyHead flag code (BitVec.ofNat 16 payload.length) ++ payload

/-- A wire frame (R50). -/
def frameBytes (dir flag : Byte) (code : Half) (payload : List Byte) (checksum : Byte) : List Byte :=
  [sof, ver, dir] ++ frameBody flag code payload ++ [checksum]

/-- The checksum a frame must carry (R50, R54). -/
def frameChecksum (flag : Byte) (code : Half) (payload : List Byte) : Byte :=
  crc8 (frameBody flag code payload)

/-- R90: the frame the builder emits. -/
def buildFrame (code : Half) (payload : List Byte) : List Byte :=
  frameBytes dirReq flagTx code payload (frameChecksum flagTx code payload)

/-- The bytes of a frame as the builder emits them on `txs`: `last` on the final byte only (R23). -/
def markLast : List Byte → List (Byte × Bool)
  | [] => []
  | [b] => [(b, true)]
  | b :: bs => (b, false) :: markLast bs

/-- `PUT8 v` (R141): the bytes the host appends to `txp`. -/
def put8 (v : Byte) : List Byte := [v]

/-- `PUT16 v` (R142; C6: both bytes are written). -/
def put16 (v : Half) : List Byte := bytesOfHalf v

/-- `PUT32 v` (R143). -/
def put32 (v : Word) : List Byte :=
  [v.extractLsb' 0 8, v.extractLsb' 8 8, v.extractLsb' 16 8, v.extractLsb' 24 8]

end Sys2Proof.Machine
end

