-- ==== Sys2Proof/Machine/Ops.lean ====
section
/-! DEFINITION. The shared operations: RX_BUF, the response port, the streams, the exceptional outcomes (R154, R160),
their return (R162), and reset (R175, R176). -/

namespace Sys2Proof.Machine

/-- The machine's outcomes of one step. -/
abbrev Result := Host.Outcome State Fault Refusal

/-! ### RX_BUF -/

/-- What is listed at an index. -/
def Memory.read : Memory → Nat → Option Byte
  | [], _ => none
  | c :: m, i => if c.1 = i then some c.2 else Memory.read m i

/-- `RX_BUF[i] <- b` (R8), keeping the canonical form. -/
def Memory.write : Memory → Nat → Byte → Memory
  | [], i, b => [(i, b)]
  | c :: m, i, b =>
    if c.1 < i then c :: Memory.write m i b
    else if c.1 = i then (i, b) :: m
    else (i, b) :: c :: m

/-- `RX_BUF[i]` (R8): the byte listed there; where nothing has been written since reset, a free value (U2, log 2). -/
def State.bufByte (s : State) (i : Nat) : Byte :=
  match Memory.read s.rx.buf i with
  | some b => b
  | none => Config.unwrittenByte s.bufEpoch i

/-- The `n` bytes of RX_BUF from index `a` on. -/
def State.bufBytes (s : State) (a n : Nat) : List Byte :=
  (List.range n).map fun k => s.bufByte (a + k)

/-- `RX_BUF[RX_CNT] <- b` (R119). Index 65535 does not exist (R21; log 9). -/
def storePayloadByte (b : Byte) (s : State) : Except Fault Memory :=
  if s.rx.cnt.toNat < rxBufBytes then .ok (Memory.write s.rx.buf s.rx.cnt.toNat b)
  else .error (.rxBufIndex s.rx.cnt.toNat)

/-! ### The response port -/

/-- The status of a response (R67); 0x5 to 0xF are never produced (U4). -/
inductive Status where
  | ok | truncatedPayload | noFrame | busy | illegalCommand
  deriving DecidableEq, Repr

/-- The codes of R67. -/
def Status.code : Status → BitVec 4
  | .ok => 0x0
  | .truncatedPayload => 0x1
  | .noFrame => 0x2
  | .busy => 0x3
  | .illegalCommand => 0x4

/-- A response word, `{status, value}` (R66). -/
def responseWord (st : Status) (value : Word) : PortWord := st.code ++ value

/-- `respond(status, value)` (R8, R65): one word is appended to `rsp`. -/
def respond (st : Status) (value : Word) (s : State) : State :=
  { s with rsp := s.rsp ++ [responseWord st value] }

/-- R154: a non-OK status is answered with value 0, and nothing else changes. -/
def refuseCommand (st : Status) (s : State) : State :=
  respond st 0 s

/-! ### The transmit stream -/

/-- `emit(txs, b, last)` (R8). -/
def emit (b : Byte) (last : Bool) (s : State) : State :=
  { s with txs := s.txs ++ [(b, last)] }

/-! ### The end of a parse -/

/-- The named failures of the parser (R155). -/
inductive ParseFailure where
  | badStart
  | badVersion
  | badDirection
  | badChecksum (computed received : Byte)
  | transportError (e : Byte)
  deriving DecidableEq, Repr

/-- R160, `raise InvalidPacket(cause)`. -/
def raiseInvalid (cause : ErrCause) (s : State) : State :=
  { s with rx := { s.rx with result := .invalidPacket, cause := cause, phase := .idle } }

/-- R160: the writes a `raise` stands for, all in one step; registers not named keep their values. -/
def raise (x : ParseFailure) (s : State) : State :=
  match x with
  | .badStart => raiseInvalid .badStart s
  | .badVersion => raiseInvalid .badVersion s
  | .badDirection => raiseInvalid .badDirection s
  | .badChecksum computed received =>
    { s with rx := { s.rx with
        result := .invalidPacket, cause := .badChecksum, errComputed := computed, errReceived := received,
        phase := .idle } }
  | .transportError e =>
    { s with rx := { s.rx with result := .transportError, errIo := e, phase := .idle } }

/-- ERR_CAUSE, ERR_CRC_COMPUTED, ERR_CRC_RECEIVED and ERR_IO to 0 (R17 to R19). -/
def clearErrors (s : State) : State :=
  { s with rx := { s.rx with cause := .noCause, errComputed := 0, errReceived := 0, errIo := 0 } }

/-- R125, R162: the return from an outcome; the held result and the four error registers are cleared. -/
def releaseOutcome (s : State) : State :=
  { clearErrors s with rx := { (clearErrors s).rx with result := .none } }

/-- R121: a frame is delivered, all in one step (R38). -/
def deliverFrame (s : State) : State :=
  { s with rx := { s.rx with result := .frame, cursor := 0, phase := .idle } }

/-! ### Reset -/

/-- R175, R176: every register to its reset value, the streams untouched; what RX_BUF then holds is unspecified, so a
new free content is selected (log 2). -/
def assertReset (s : State) : State :=
  { s with crcAcc := 0, tx := TxRegs.reset, rx := RxRegs.reset, bufEpoch := s.bufEpoch + 1 }

end Sys2Proof.Machine
end

