-- ==== Sys2Proof/Machine/Flags.lean ====
section
/-! DEFINITION. The derived conditions (R20), the codes of the result registers (R16, R17), the two status values
(R92, R123) and which agent has an enabled step (R170, R193). -/

namespace Sys2Proof.Machine

/-- RX_RESULT's numbers (R16). -/
def ParseResult.code : ParseResult → BitVec 2
  | .none => 0
  | .frame => 1
  | .invalidPacket => 2
  | .transportError => 3

/-- ERR_CAUSE's numbers (R17). -/
def ErrCause.code : ErrCause → BitVec 3
  | .noCause => 0
  | .badStart => 1
  | .badVersion => 2
  | .badDirection => 3
  | .badChecksum => 4

/-- TX_BUSY (R20). -/
def txBusy (s : State) : Bool := s.tx.phase != .idle

/-- RX_BUSY (R20). -/
def rxBusy (s : State) : Bool := s.rx.phase != .idle

/-- FRAME_VALID (R20). -/
def frameValid (s : State) : Bool := s.rx.result == .frame

/-- The value of TX.STATUS (R92). -/
def txStatusValue (s : State) : Word := (BitVec.ofBool (txBusy s)).setWidth 32

/-- The value of RX.STATUS (R123). -/
def rxStatusValue (s : State) : Word :=
  s.rx.errIo ++ (s.rx.errReceived ++ (s.rx.errComputed ++
    ((0 : BitVec 2) ++ (BitVec.ofBool (rxBusy s) ++ (s.rx.cause.code ++ s.rx.result.code)))))

/-- CMD has a step (R170). -/
def cmdEnabled (s : State) : Bool := !s.cmd.isEmpty

/-- TXSEQ has a step (R170). -/
def txEnabled (s : State) : Bool :=
  txBusy s && (s.tx.phase != .payload || !s.txp.isEmpty) && s.sinkReady

/-- RXSEQ has a step (R107, R170). -/
def rxEnabled (s : State) : Bool := rxBusy s && !s.rxs.isEmpty

/-- An agent has a step. -/
def agentEnabled (a : Agent) (s : State) : Bool :=
  match a with
  | .cmd => cmdEnabled s
  | .txseq => txEnabled s
  | .rxseq => rxEnabled s

/-- R193: nothing inside the block has a step and the host has no more commands, SINK being ready. -/
def quiescent (s : State) : Bool :=
  s.cmd.isEmpty && (!txBusy s || (s.tx.phase == .payload && s.txp.isEmpty)) && (!rxBusy s || s.rxs.isEmpty)

end Sys2Proof.Machine
end

