-- ==== Sys2Proof/Machine/Builder.lean ====
section
/-! DEFINITION. The frame builder (41_frame_build.md): its two operations (R91, R92) and the transmit sequencer
(R93 to R95). -/

namespace Sys2Proof.Machine

/-- `TX.BUILD code, len` (R91): accepted only in T_IDLE. TX_CRC is not written here. -/
def execTxBuild (code len : Half) (s : State) : Result :=
  if txBusy s then .next (refuseCommand .busy s)
  else .next (respond .ok 0 { s with tx := { s.tx with code := code, len := len, cnt := 0, phase := .hdr0 } })

/-- `TX.STATUS` (R92). -/
def execTxStatus (s : State) : Result :=
  .next (respond .ok (txStatusValue s) s)

/-- A step that emits one fixed byte and leaves TX_CRC alone (R93: the first two header bytes). -/
def txPlain (b : Byte) (next : TxPhase) (s : State) : State :=
  emit b false { s with tx := { s.tx with phase := next } }

/-- A step that emits one byte of the checksummed range (R93, R94). -/
def txBody (b : Byte) (next : TxPhase) (s : State) : State :=
  emit b false { s with tx := { s.tx with crc := crc8Update s.tx.crc b, phase := next } }

/-- R93: in T_LEN_HI an empty payload skips T_PAYLOAD (R97). -/
def txAfterLength (s : State) : TxPhase :=
  if s.tx.len = 0 then .crc else .payload

/-- R94: T_PAYLOAD is left with the last payload byte. -/
def txAfterPayloadByte (s : State) : TxPhase :=
  if s.tx.cnt + 1 = s.tx.len then .crc else .payload

/-- R94: one payload byte, already taken from `txp`. -/
def txPayloadByte (b : Byte) (s : State) : State :=
  emit b false { s with tx := { s.tx with
    crc := crc8Update s.tx.crc b, cnt := s.tx.cnt + 1, phase := txAfterPayloadByte s } }

/-- The step of each phase while SINK is ready (R93 to R95); in T_PAYLOAD with `txp` empty TXSEQ waits (R36). -/
def txPhaseStep (s : State) : State :=
  match s.tx.phase with
  | .idle => s
  | .hdr0 => txPlain sof .hdr1 s
  | .hdr1 => txPlain ver .hdr2 s
  | .hdr2 => emit dirReq false { s with tx := { s.tx with crc := crcInit, phase := .flag } }
  | .flag => txBody flagTx .codeLo s
  | .codeLo => txBody (loByte s.tx.code) .codeHi s
  | .codeHi => txBody (hiByte s.tx.code) .lenLo s
  | .lenLo => txBody (loByte s.tx.len) .lenHi s
  | .lenHi => txBody (hiByte s.tx.len) (txAfterLength s) s
  | .payload =>
    match s.txp with
    | [] => s
    | b :: rest => txPayloadByte b { s with txp := rest }
  | .crc => emit s.tx.crc true { s with tx := { s.tx with phase := .idle } }

/-- One step of TXSEQ; while SINK is not ready it waits (R36). -/
def txStep (s : State) : State :=
  if s.sinkReady then txPhaseStep s else s

end Sys2Proof.Machine
end

