-- ==== Sys2Proof/Machine/CrcUnit.lean ====
section
/-! DEFINITION. The checksum unit's operations (40_crc.md R81 to R83). -/

namespace Sys2Proof.Machine

/-- `CRC.CLEAR` (R81). -/
def execCrcClear (s : State) : Result :=
  .next (respond .ok 0 { s with crcAcc := crcInit })

/-- `CRC.UPDATE b` (R82): the response carries the new value. -/
def execCrcUpdate (b : Byte) (s : State) : Result :=
  .next (respond .ok ((crc8Update s.crcAcc b).setWidth 32) { s with crcAcc := crc8Update s.crcAcc b })

/-- `CRC.READ` (R83). -/
def execCrcRead (s : State) : Result :=
  .next (respond .ok (s.crcAcc.setWidth 32) s)

end Sys2Proof.Machine
end

