-- ==== Sys2Proof/Machine/Parser.lean ====
section
/-! DEFINITION. The frame parser (42_frame_parse.md): its four operations (R106, R123 to R125), the receive sequencer
(R107 to R120) and what a whole wire frame does to it (R105). -/

namespace Sys2Proof.Machine

/-- `RX.PARSE` (R106): accepted only in R_IDLE with no outcome held; it removes no token. -/
def execRxParse (s : State) : Result :=
  if rxBusy s || s.rx.result != .none then .next (refuseCommand .busy s)
  else .next (respond .ok 0 { clearErrors s with rx := { (clearErrors s).rx with phase := .hdr0 } })

/-- `RX.STATUS` (R123). -/
def execRxStatus (s : State) : Result :=
  .next (respond .ok (rxStatusValue s) s)

/-- `RX.HEAD` (R124). -/
def execRxHead (s : State) : Result :=
  if s.rx.result ≠ .frame then .next (refuseCommand .noFrame s)
  else .next (respond .ok (s.rx.len ++ s.rx.code) s)

/-- `RX.RELEASE` (R125): always OK. -/
def execRxRelease (s : State) : Result :=
  .next (respond .ok 0 (releaseOutcome s))

/-! ### The receive sequencer -/

/-- R109. `early` is HDR_EARLY_ABORT. -/
def rxHdr0 (early : Bool) (b : Byte) (s : State) : State :=
  if b ≠ sof ∧ early = true then raise .badStart { s with rx := { s.rx with h0 := b } }
  else { s with rx := { s.rx with h0 := b, phase := .hdr1 } }

/-- R110. -/
def rxHdr1 (early : Bool) (b : Byte) (s : State) : State :=
  if b ≠ ver ∧ early = true then raise .badVersion { s with rx := { s.rx with h1 := b } }
  else { s with rx := { s.rx with h1 := b, phase := .hdr2 } }

/-- R111: the header check, in this order; `b` is not stored. -/
def rxHdr2 (b : Byte) (s : State) : State :=
  if s.rx.h0 ≠ sof then raise .badStart s
  else if s.rx.h1 ≠ ver then raise .badVersion s
  else if b ≠ dirReq ∧ b ≠ dirRsp then raise .badDirection s
  else { s with rx := { s.rx with crc := crcInit, phase := .flag } }

/-- R114: the flag is checksummed and dropped. -/
def rxFlag (b : Byte) (s : State) : State :=
  { s with rx := { s.rx with crc := crc8Update s.rx.crc b, phase := .codeLo } }

/-- R115. -/
def rxCodeLo (b : Byte) (s : State) : State :=
  { s with rx := { s.rx with
      code := halfOfBytes b (hiByte s.rx.code), crc := crc8Update s.rx.crc b, phase := .codeHi } }

/-- R116. -/
def rxCodeHi (b : Byte) (s : State) : State :=
  { s with rx := { s.rx with
      code := halfOfBytes (loByte s.rx.code) b, crc := crc8Update s.rx.crc b, phase := .lenLo } }

/-- R117. -/
def rxLenLo (b : Byte) (s : State) : State :=
  { s with rx := { s.rx with
      len := halfOfBytes b (hiByte s.rx.len), crc := crc8Update s.rx.crc b, phase := .lenHi } }

/-- R118: the test is on the full new length. -/
def rxLenHi (b : Byte) (s : State) : State :=
  { s with rx := { s.rx with
      len := halfOfBytes (loByte s.rx.len) b, crc := crc8Update s.rx.crc b, cnt := 0,
      phase := if halfOfBytes (loByte s.rx.len) b = 0 then .crc else .payload } }

/-- R119. -/
def rxPayload (b : Byte) (s : State) : Result :=
  match storePayloadByte b s with
  | .error f => .fault f
  | .ok buf =>
    .next { s with rx := { s.rx with
      buf := buf, crc := crc8Update s.rx.crc b, cnt := s.rx.cnt + 1,
      phase := if s.rx.cnt + 1 = s.rx.len then .crc else .payload } }

/-- R120: the checksum check. -/
def rxChecksum (b : Byte) (s : State) : State :=
  if b = s.rx.crc then deliverFrame s else raise (.badChecksum s.rx.crc b) s

/-- A byte token in each phase (R109 to R120); in R_IDLE RXSEQ has no step (R107). -/
def rxByte (early : Bool) (b : Byte) (s : State) : Result :=
  match s.rx.phase with
  | .idle => .next s
  | .hdr0 => .next (rxHdr0 early b s)
  | .hdr1 => .next (rxHdr1 early b s)
  | .hdr2 => .next (rxHdr2 b s)
  | .flag => .next (rxFlag b s)
  | .codeLo => .next (rxCodeLo b s)
  | .codeHi => .next (rxCodeHi b s)
  | .lenLo => .next (rxLenLo b s)
  | .lenHi => .next (rxLenHi b s)
  | .payload => rxPayload b s
  | .crc => .next (rxChecksum b s)

/-- A token, already removed from `rxs`, while a parse runs (R107, R108). -/
def rxToken (early : Bool) (t : Token) (s : State) : Result :=
  match t with
  | .byte b => rxByte early b s
  | .ioerr e => .next (raise (.transportError e) s)

/-- One step of RXSEQ for a given HDR_EARLY_ABORT: it takes one token; in R_IDLE, or with `rxs` empty, it has no step
(R107, R36). -/
def rxStepWith (early : Bool) (s : State) : Result :=
  if rxBusy s then
    match s.rxs with
    | [] => .next s
    | t :: rest => rxToken early t { s with rxs := rest }
  else .next s

/-- One step of RXSEQ. -/
def rxStep (s : State) : Result := rxStepWith Config.hdrEarlyAbort s

/-! ### A whole wire frame -/

/-- RXSEQ takes the given tokens, which stand in front of `rxs`, one after the other; once the parser is idle it takes
none, and those that are left stay at the head of `rxs` (R107, R129). -/
def rxTokens (early : Bool) : List Token → State → Result
  | [], s => .next s
  | t :: ts, s =>
    if rxBusy s then
      match rxToken early t s with
      | .next s' => rxTokens early ts s'
      | .fault f => .fault f
      | .refused r => .refused r
    else .next { s with rxs := t :: ts ++ s.rxs }

/-- The bytes of a frame arrive at the parser (R105). -/
def receiveFrame (bytes : List Byte) (s : State) : Result :=
  rxTokens Config.hdrEarlyAbort (bytes.map .byte) s

/-- `FRAME.REQ`, a frame with direction `<` before RXSEQ (R55, R105). (log 5) -/
def execFrameReq (flag : Byte) (code : Half) (payload : List Byte) (checksum : Byte) (s : State) : Result :=
  receiveFrame (frameBytes dirReq flag code payload checksum) s

/-- `FRAME.RSP`, a frame with direction `>` before RXSEQ (R55, R105). (log 5) -/
def execFrameRsp (flag : Byte) (code : Half) (payload : List Byte) (checksum : Byte) (s : State) : Result :=
  receiveFrame (frameBytes dirRsp flag code payload checksum) s

end Sys2Proof.Machine
end

