-- ==== Sys2Proof/Machine/Operands.lean ====
section
/-! DEFINITION. The one addressing mode (R135): at the cursor, post-incremented by the width. -/

namespace Sys2Proof.Machine

/-- `MemRead(a, n)` (R8): the `n` bytes from index `a`, assembled little-endian, zero-extended to the response's
value field (R136 to R138). -/
def memRead (s : State) (a n : Nat) : Word :=
  BitVec.ofNat 32 (assembleLE (s.bufBytes a n))

/-- Fewer than `n` bytes of the held frame remain (R135). The comparison is of unsigned numbers without wrap: a cursor
beyond the length, which R28 item 2 excludes, leaves nothing to read. (log 11) -/
def tooFewBytes (s : State) (n : Nat) : Bool :=
  decide (s.rx.len.toNat < s.rx.cursor.toNat + n)

/-- `get(n)` (R135), shared by the three reads. -/
def readAtCursor (n : Nat) (s : State) : State :=
  if s.rx.result ≠ .frame then refuseCommand .noFrame s
  else if tooFewBytes s n then refuseCommand .truncatedPayload s
  else
    respond .ok (memRead s s.rx.cursor.toNat n)
      { s with rx := { s.rx with cursor := s.rx.cursor + BitVec.ofNat 16 n } }

end Sys2Proof.Machine
end

