-- ==== Sys2Proof/Machine/Payload.lean ====
section
/-! DEFINITION. Payload scalar access (43_payload_access.md R135 to R139). -/

namespace Sys2Proof.Machine

/-- `RX.GET8` (R136). -/
def execRxGet8 (s : State) : Result := .next (readAtCursor 1 s)

/-- `RX.GET16` (R137). -/
def execRxGet16 (s : State) : Result := .next (readAtCursor 2 s)

/-- `RX.GET32` (R138). -/
def execRxGet32 (s : State) : Result := .next (readAtCursor 4 s)

/-- `RX.CURSOR` (R139). -/
def execRxCursor (s : State) : Result :=
  if s.rx.result ≠ .frame then .next (refuseCommand .noFrame s)
  else .next (respond .ok (s.rx.cursor.setWidth 32) s)

end Sys2Proof.Machine
end

