-- ==== Sys2Proof/Syntax.lean ====
section
/-! DEFINITION. One constructor per row of spec/opcode_table.json: the thirteen commands of R62 and the two
frame forms of R55. -/

namespace Sys2Proof

inductive Instr where
  /-- `CRC.CLEAR` (R81) -/
  | crcClear
  /-- `CRC.UPDATE b` (R82) -/
  | crcUpdate (b : Byte)
  /-- `CRC.READ` (R83) -/
  | crcRead
  /-- `TX.BUILD code, len` (R91) -/
  | txBuild (code len : Half)
  /-- `TX.STATUS` (R92) -/
  | txStatus
  /-- `RX.PARSE` (R106) -/
  | rxParse
  /-- `RX.STATUS` (R123) -/
  | rxStatus
  /-- `RX.HEAD` (R124) -/
  | rxHead
  /-- `RX.GET8` (R136) -/
  | rxGet8
  /-- `RX.GET16` (R137) -/
  | rxGet16
  /-- `RX.GET32` (R138) -/
  | rxGet32
  /-- `RX.CURSOR` (R139) -/
  | rxCursor
  /-- `RX.RELEASE` (R125) -/
  | rxRelease
  /-- `FRAME.REQ`, a frame with direction `<` (R50, R55); the length field is the payload's length -/
  | frameReq (flag : Byte) (code : Half) (payload : List Byte) (checksum : Byte)
  /-- `FRAME.RSP`, a frame with direction `>` (R50, R55); the length field is the payload's length -/
  | frameRsp (flag : Byte) (code : Half) (payload : List Byte) (checksum : Byte)
  deriving DecidableEq, Repr

end Sys2Proof
end

