-- ==== Sys2Proof/Machine/Dispatch.lean ====
section
/-! DEFINITION. One arm per instruction. -/

namespace Sys2Proof.Machine

def exec (i : Instr) (s : State) : Host.Outcome State Fault Refusal :=
  match i with
  | .crcClear => Sys2Proof.Machine.execCrcClear s
  | .crcUpdate b => Sys2Proof.Machine.execCrcUpdate b s
  | .crcRead => Sys2Proof.Machine.execCrcRead s
  | .txBuild code len => Sys2Proof.Machine.execTxBuild code len s
  | .txStatus => Sys2Proof.Machine.execTxStatus s
  | .rxParse => Sys2Proof.Machine.execRxParse s
  | .rxStatus => Sys2Proof.Machine.execRxStatus s
  | .rxHead => Sys2Proof.Machine.execRxHead s
  | .rxGet8 => Sys2Proof.Machine.execRxGet8 s
  | .rxGet16 => Sys2Proof.Machine.execRxGet16 s
  | .rxGet32 => Sys2Proof.Machine.execRxGet32 s
  | .rxCursor => Sys2Proof.Machine.execRxCursor s
  | .rxRelease => Sys2Proof.Machine.execRxRelease s
  | .frameReq flag code payload checksum => Sys2Proof.Machine.execFrameReq flag code payload checksum s
  | .frameRsp flag code payload checksum => Sys2Proof.Machine.execFrameRsp flag code payload checksum s

end Sys2Proof.Machine
end

