-- ==== Sys2Proof/Machine/Environment.lean ====
section
/-! DEFINITION. One step of the environment: HOST, SRC, SINK and the reset input (R170, R175, R176). -/

namespace Sys2Proof.Machine

/-- The effect of an event; taking from an empty queue has none. (log 6) -/
def envStep (e : EnvEvent) (s : State) : State :=
  match e with
  | .hostCommand w => { s with cmd := s.cmd ++ [w] }
  | .hostPayload b => { s with txp := s.txp ++ [b] }
  | .hostTakeResponse => { s with rsp := s.rsp.drop 1 }
  | .sourceToken t => { s with rxs := s.rxs ++ [t] }
  | .sinkTake => { s with txs := s.txs.drop 1 }
  | .sinkReady ready => { s with sinkReady := ready }
  | .reset => assertReset s

end Sys2Proof.Machine
end

