-- ==== Sys2Proof/WellFormed.lean ====
section
/-! DEFINITION. Which instructions have an encoding. Every command has one, whatever its operands (R63: all are
immediates taken as they stand); a frame has one when its payload's length fits the 16-bit length field (R50), and
it is a legal frame when its checksum byte is the CRC of its body (R56). -/

namespace Sys2Proof

/-- The payload's length can be stated in the length field (R50, R51, R99). -/
def Instr.lengthFits : Instr → Bool
  | .frameReq _ _ payload _ => decide (payload.length ≤ 65535)
  | .frameRsp _ _ payload _ => decide (payload.length ≤ 65535)
  | .crcClear | .crcUpdate _ | .crcRead | .txBuild _ _ | .txStatus | .rxParse | .rxStatus | .rxHead
  | .rxGet8 | .rxGet16 | .rxGet32 | .rxCursor | .rxRelease => true

/-- The checksum byte is the CRC of offsets 3 to 7+N (R56). -/
def Instr.checksumRight : Instr → Bool
  | .frameReq flag code payload c => c == Machine.frameChecksum flag code payload
  | .frameRsp flag code payload c => c == Machine.frameChecksum flag code payload
  | .crcClear | .crcUpdate _ | .crcRead | .txBuild _ _ | .txStatus | .rxParse | .rxStatus | .rxHead
  | .rxGet8 | .rxGet16 | .rxGet32 | .rxCursor | .rxRelease => true

/-- An instruction with an encoding that the spec calls legal. -/
def Instr.wellFormed (i : Instr) : Bool :=
  i.lengthFits && i.checksumRight

/-- The instruction is one of the thirteen operations of R62. -/
def Instr.isCommand : Instr → Bool
  | .frameReq _ _ _ _ | .frameRsp _ _ _ _ => false
  | .crcClear | .crcUpdate _ | .crcRead | .txBuild _ _ | .txStatus | .rxParse | .rxStatus | .rxHead
  | .rxGet8 | .rxGet16 | .rxGet32 | .rxCursor | .rxRelease => true

end Sys2Proof
end

