-- ==== Sys2Proof/Decode.lean ====
section
/-! DEFINITION. Decoding of command words (R59, R60, R63) and of wire frames (R50 to R52, R56), rejecting by name,
and the encoder written from the same tables. -/

namespace Sys2Proof

open Sys2Proof.Machine

/-- Why bits are no instruction. -/
inductive DecodeError where
  /-- the op is 0x0, 0xE or 0xF (R62, R64) -/
  | reservedOp (op : BitVec 4)
  /-- a must-be-0 bit of `arg` is 1 (R63, R64) -/
  | reservedBits (op : BitVec 4) (arg : Word)
  /-- frame byte 0 is not `$` (R56) -/
  | badStart
  /-- frame byte 1 is not `X` (R56, C2) -/
  | badVersion
  /-- frame byte 2 is neither `<` nor `>` (R56) -/
  | badDirection
  /-- fewer bytes than the frame's own length asks for (R51): not a whole frame -/
  | shortFrame
  deriving DecidableEq, Repr

/-! ### Command words -/

/-- `w[35:32]` (R59). -/
def cmdOp (w : PortWord) : BitVec 4 := w.extractLsb' 32 4

/-- `w[31:0]` (R59). -/
def cmdArg (w : PortWord) : Word := w.extractLsb' 0 32

/-- `arg[7:0]`, the operand of CRC.UPDATE (R63). -/
def argByte (arg : Word) : Byte := arg.extractLsb' 0 8

/-- `arg[15:0]`, the operand `code` of TX.BUILD (R63). -/
def argCode (arg : Word) : Half := arg.extractLsb' 0 16

/-- `arg[31:16]`, the operand `len` of TX.BUILD (R63). -/
def argLen (arg : Word) : Half := arg.extractLsb' 16 16

/-- An operation with no operand: all of `arg` must be 0 (R63). -/
def decodeNoArg (op : BitVec 4) (arg : Word) (i : Instr) : Except DecodeError Instr :=
  if arg = 0 then .ok i else .error (.reservedBits op arg)

/-- R60: decoding of a command word; it depends on nothing but the word. -/
def decodeCmd (w : PortWord) : Except DecodeError Instr :=
  match cmdOp w with
  | 0x1#4 => decodeNoArg 0x1 (cmdArg w) .crcClear
  | 0x2#4 =>
    if (cmdArg w).extractLsb' 8 24 = 0 then .ok (.crcUpdate (argByte (cmdArg w)))
    else .error (.reservedBits 0x2 (cmdArg w))
  | 0x3#4 => decodeNoArg 0x3 (cmdArg w) .crcRead
  | 0x4#4 => .ok (.txBuild (argCode (cmdArg w)) (argLen (cmdArg w)))
  | 0x5#4 => decodeNoArg 0x5 (cmdArg w) .txStatus
  | 0x6#4 => decodeNoArg 0x6 (cmdArg w) .rxParse
  | 0x7#4 => decodeNoArg 0x7 (cmdArg w) .rxStatus
  | 0x8#4 => decodeNoArg 0x8 (cmdArg w) .rxHead
  | 0x9#4 => decodeNoArg 0x9 (cmdArg w) .rxGet8
  | 0xA#4 => decodeNoArg 0xA (cmdArg w) .rxGet16
  | 0xB#4 => decodeNoArg 0xB (cmdArg w) .rxGet32
  | 0xC#4 => decodeNoArg 0xC (cmdArg w) .rxCursor
  | 0xD#4 => decodeNoArg 0xD (cmdArg w) .rxRelease
  | op => .error (.reservedOp op)

/-! ### Wire frames -/

/-- Offsets 3 on (R50 to R52): flag, code, length, that many payload bytes and the checksum, with what follows. -/
def decodeFrameBody (form : Byte → Half → List Byte → Byte → Instr) :
    List Byte → Except DecodeError (Instr × List Byte)
  | flag :: c0 :: c1 :: n0 :: n1 :: more =>
    let n := (halfOfBytes n0 n1).toNat
    match more.drop n with
    | checksum :: after => .ok (form flag (halfOfBytes c0 c1) (more.take n) checksum, after)
    | [] => .error .shortFrame
  | _ => .error .shortFrame

/-- A frame at the head of a byte sequence, and the bytes after it (R50 to R52, R55, R56). A wrong checksum byte is
kept as it stands: the frame is then not well formed, and its meaning ends the parse with BAD_CHECKSUM (R122). -/
def decodeFrame : List Byte → Except DecodeError (Instr × List Byte)
  | b0 :: b1 :: b2 :: more =>
    if b0 ≠ sof then .error .badStart
    else if b1 ≠ ver then .error .badVersion
    else if b2 = dirReq then decodeFrameBody .frameReq more
    else if b2 = dirRsp then decodeFrameBody .frameRsp more
    else .error .badDirection
  | _ => .error .shortFrame

/-! ### The encoder -/

/-- What an instruction is encoded as: a word of the command port or the bytes of a wire frame (R59, R50). -/
inductive Encoded where
  | cmdWord (w : PortWord)
  | wire (bytes : List Byte)
  deriving DecidableEq, Repr

/-- The command word of an operation number and an `arg` (R59). -/
def cmdWordOf (op : BitVec 4) (arg : Word) : PortWord := op ++ arg

/-- The words of an instruction (R50, R55, R63). -/
def encode : Instr → Encoded
  | .crcClear => .cmdWord (cmdWordOf 0x1 0)
  | .crcUpdate b => .cmdWord (cmdWordOf 0x2 ((0 : BitVec 24) ++ b))
  | .crcRead => .cmdWord (cmdWordOf 0x3 0)
  | .txBuild code len => .cmdWord (cmdWordOf 0x4 (len ++ code))
  | .txStatus => .cmdWord (cmdWordOf 0x5 0)
  | .rxParse => .cmdWord (cmdWordOf 0x6 0)
  | .rxStatus => .cmdWord (cmdWordOf 0x7 0)
  | .rxHead => .cmdWord (cmdWordOf 0x8 0)
  | .rxGet8 => .cmdWord (cmdWordOf 0x9 0)
  | .rxGet16 => .cmdWord (cmdWordOf 0xA 0)
  | .rxGet32 => .cmdWord (cmdWordOf 0xB 0)
  | .rxCursor => .cmdWord (cmdWordOf 0xC 0)
  | .rxRelease => .cmdWord (cmdWordOf 0xD 0)
  | .frameReq flag code payload c => .wire (frameBytes dirReq flag code payload c)
  | .frameRsp flag code payload c => .wire (frameBytes dirRsp flag code payload c)

/-- The instruction that an encoding is: a command word alone, or exactly one whole frame. -/
def decode : Encoded → Except DecodeError Instr
  | .cmdWord w => decodeCmd w
  | .wire bytes =>
    match decodeFrame bytes with
    | .ok (i, []) => .ok i
    | .ok (_, _ :: _) => .error .shortFrame
    | .error e => .error e

/-! ### The opcode table -/

/-- One row of the table of R63 (and R55): which words select it. -/
structure TableRow where
  mnemonic : String
  matchBits : Nat
  maskBits : Nat
  deriving DecidableEq, Repr

/-- The thirteen rows of R63. -/
def cmdRows : List TableRow :=
  [ ⟨"CRC.CLEAR", 0x100000000, 0xFFFFFFFFF⟩,
    ⟨"CRC.UPDATE", 0x200000000, 0xFFFFFFF00⟩,
    ⟨"CRC.READ", 0x300000000, 0xFFFFFFFFF⟩,
    ⟨"TX.BUILD", 0x400000000, 0xF00000000⟩,
    ⟨"TX.STATUS", 0x500000000, 0xFFFFFFFFF⟩,
    ⟨"RX.PARSE", 0x600000000, 0xFFFFFFFFF⟩,
    ⟨"RX.STATUS", 0x700000000, 0xFFFFFFFFF⟩,
    ⟨"RX.HEAD", 0x800000000, 0xFFFFFFFFF⟩,
    ⟨"RX.GET8", 0x900000000, 0xFFFFFFFFF⟩,
    ⟨"RX.GET16", 0xA00000000, 0xFFFFFFFFF⟩,
    ⟨"RX.GET32", 0xB00000000, 0xFFFFFFFFF⟩,
    ⟨"RX.CURSOR", 0xC00000000, 0xFFFFFFFFF⟩,
    ⟨"RX.RELEASE", 0xD00000000, 0xFFFFFFFFF⟩ ]

/-- The two rows of R55, over frame offsets 0 to 2 with offset 0 most significant. -/
def frameRows : List TableRow :=
  [ ⟨"FRAME.REQ", 0x24583C, 0xFFFFFF⟩, ⟨"FRAME.RSP", 0x24583E, 0xFFFFFF⟩ ]

/-- The word selects the row: `w & mask = match` (R63). -/
def TableRow.selects (r : TableRow) (w : Nat) : Bool :=
  w &&& r.maskBits == r.matchBits

/-- The mnemonic of an instruction's row. -/
def Instr.mnemonic : Instr → String
  | .crcClear => "CRC.CLEAR"
  | .crcUpdate _ => "CRC.UPDATE"
  | .crcRead => "CRC.READ"
  | .txBuild _ _ => "TX.BUILD"
  | .txStatus => "TX.STATUS"
  | .rxParse => "RX.PARSE"
  | .rxStatus => "RX.STATUS"
  | .rxHead => "RX.HEAD"
  | .rxGet8 => "RX.GET8"
  | .rxGet16 => "RX.GET16"
  | .rxGet32 => "RX.GET32"
  | .rxCursor => "RX.CURSOR"
  | .rxRelease => "RX.RELEASE"
  | .frameReq _ _ _ _ => "FRAME.REQ"
  | .frameRsp _ _ _ _ => "FRAME.RSP"

/-- The bits that select an instruction's row, numbered as the table numbers them: the whole command word, or the
first three frame bytes with offset 0 most significant (R55, R63). -/
def Encoded.tableBits : Encoded → Nat
  | .cmdWord w => w.toNat
  | .wire bytes => assembleLE (bytes.take 3).reverse

/-- How many bits the table gives a frame row: frame offsets 0 to 2 (R55). -/
def frameRowBits : Nat := 24

/-- The bytes of a frame whose table bits are `w` and whose other bytes, up to its own length, are 0: the table puts
offset 0 in the most significant of the 24 bits (R55; log 8). With a length field of 0 that is nine bytes (R51). -/
def frameOfTableWord (w : Nat) : List Byte :=
  [BitVec.ofNat 8 (w / 65536), BitVec.ofNat 8 (w / 256), BitVec.ofNat 8 w] ++ List.replicate 6 0

/-- The instruction read from the table's bits `w` (log 8): the 24-bit rows are frames, all others command words,
and no command has a bit above bit 35 (R59). -/
def decodeTableWord (nbits w : Nat) : Option Instr :=
  if nbits = frameRowBits then
    if w < 2 ^ 24 then
      match decodeFrame (frameOfTableWord w) with
      | .ok (i, _) => some i
      | .error _ => none
    else none
  else if w < 2 ^ 36 then
    match decodeCmd (BitVec.ofNat 36 w) with
    | .ok i => some i
    | .error _ => none
  else none

end Sys2Proof
end

