-- ==== Sys2Proof/Machine/Fetch.lean ====
section
/-! DEFINITION. Fetching: which frame stands at the head of `rxs`, and placing an instruction's words. -/

namespace Sys2Proof.Machine

/-- The bytes at the head of `rxs`, up to the first error token. -/
def leadingBytes : List Token → List Byte
  | .byte b :: ts => b :: leadingBytes ts
  | _ => []

/-- The whole wire frame at the head of `rxs` and how many tokens it is, if one is there (R51). -/
def fetchFrame (s : State) : Option (Instr × Nat) :=
  match decodeFrame (leadingBytes s.rxs) with
  | .ok (i, after) => some (i, (leadingBytes s.rxs).length - after.length)
  | .error _ => none

/-- A command word becomes the next thing CMD executes. (log 7) -/
def placeCommand (w : PortWord) (s : State) : State :=
  { s with agenda := .agent .cmd :: s.agenda, cmd := w :: s.cmd }

/-- A wire frame becomes the next thing RXSEQ takes, in a parse that has just been started (R106). (log 7) -/
def placeFrame (bytes : List Byte) (s : State) : State :=
  { clearErrors s with
    agenda := .frame :: s.agenda, rxs := bytes.map .byte ++ s.rxs,
    rx := { (clearErrors s).rx with phase := .hdr0, result := .none } }

end Sys2Proof.Machine
end

