-- ==== Sys2Proof/Machine/Sequence.lean ====
section
/-! DEFINITION. One step of each agent (R170), and one turn of the agenda. -/

namespace Sys2Proof.Machine

/-- CMD executes a command word already removed from `cmd` (R60, R65): an illegal word is answered
ILLEGAL_COMMAND before any state is read (R154, R157). -/
def runCommand (w : PortWord) (s : State) : Result :=
  match decodeCmd w with
  | .ok i => exec i s
  | .error _ => .next (refuseCommand .illegalCommand s)

/-- One step of CMD (R43); with `cmd` empty it has none. -/
def cmdStep (s : State) : Result :=
  match s.cmd with
  | [] => .next s
  | w :: rest => runCommand w { s with cmd := rest }

/-- One step of an inside agent; an agent with no enabled step leaves the state as it is (R36; log 4). -/
def agentStep (a : Agent) (s : State) : Result :=
  match a with
  | .cmd => cmdStep s
  | .txseq => .next (txStep s)
  | .rxseq => rxStep s

/-- RXSEQ takes the whole frame at the head of `rxs`; where no whole frame stands there, one token. (log 5) -/
def frameStep (s : State) : Result :=
  match fetchFrame s with
  | some (i, n) => exec i { s with rxs := s.rxs.drop n }
  | none => rxStep s

/-- One turn. -/
def takeTurn (t : Turn) (s : State) : Result :=
  match t with
  | .agent a => agentStep a s
  | .frame => frameStep s
  | .env e => .next (envStep e s)

/-- The next turn: the head of the agenda or, when it is used up, a free choice among the inside agents (U9; log 3). -/
def nextTurn (s : State) : Turn × State :=
  match s.agenda with
  | t :: rest => (t, { s with agenda := rest })
  | [] => (.agent (Config.arbiter s.choices), { s with choices := s.choices + 1 })

end Sys2Proof.Machine
end

