-- ==== Sys2Proof/Machine/Step.lean ====
section
/-! DEFINITION. The step of the machine, and where an instruction's words stand when it is the next. -/

namespace Sys2Proof.Machine

/-- One step: the next turn is taken off the agenda and run (R47, R170). -/
def step (s : State) : Host.Outcome State Fault Refusal :=
  takeTurn (nextTurn s).1 (nextTurn s).2

/-- The instruction with table bits `w` placed where the next step runs it (log 7, log 8). -/
def State.withFetchWord (s : State) (nbits w : Nat) : State :=
  if nbits = frameRowBits then placeFrame (frameOfTableWord w) s
  else placeCommand (BitVec.ofNat 36 w) s

end Sys2Proof.Machine
end

