-- ==== Sys2Proof/Machine/Reference.lean ====
section
/-! DEFINITION. What the spec says a parse computes, as a function of the tokens alone (R105, R113), a run of
several steps, and a sequence of scalars in a payload (R141 to R147): the other side of the claims about the step by
step machine. -/

namespace Sys2Proof.Machine

/-- How a parse ends (R155): by delivery or by a named failure. -/
inductive ParseEnd where
  | frame (code : Half) (payload : List Byte)
  | failed (x : ParseFailure)
  deriving DecidableEq, Repr

/-- The index and the code of the first IOERR among some tokens. -/
def firstError : List Token → Option (Nat × Byte)
  | [] => none
  | .ioerr e :: _ => some (0, e)
  | .byte _ :: ts => (firstError ts).map fun r => (r.1 + 1, r.2)

/-- What the first three tokens settle. -/
inductive HeaderVerdict where
  /-- the parse has no result yet -/
  | waits
  /-- the parse is over, with this many tokens consumed -/
  | ends (r : ParseEnd) (consumed : Nat)
  /-- all three header bytes are right -/
  | goesOn
  deriving DecidableEq, Repr

/-- R105, first block (HDR_EARLY_ABORT = 0): three tokens, then the tests in order. -/
def headerLate (t : List Token) : HeaderVerdict :=
  match firstError (t.take 3) with
  | some (i, e) => .ends (.failed (.transportError e)) (i + 1)
  | none =>
    match t with
    | .byte b0 :: .byte b1 :: .byte b2 :: _ =>
      if b0 ≠ sof then .ends (.failed .badStart) 3
      else if b1 ≠ ver then .ends (.failed .badVersion) 3
      else if b2 ≠ dirReq ∧ b2 ≠ dirRsp then .ends (.failed .badDirection) 3
      else .goesOn
    | _ => .waits

/-- R112, R113 (HDR_EARLY_ABORT = 1): each token is judged as it comes. -/
def headerEarly (t : List Token) : HeaderVerdict :=
  match t with
  | [] => .waits
  | .ioerr e :: _ => .ends (.failed (.transportError e)) 1
  | .byte b0 :: t1 =>
    if b0 ≠ sof then .ends (.failed .badStart) 1
    else
      match t1 with
      | [] => .waits
      | .ioerr e :: _ => .ends (.failed (.transportError e)) 2
      | .byte b1 :: t2 =>
        if b1 ≠ ver then .ends (.failed .badVersion) 2
        else
          match t2 with
          | [] => .waits
          | .ioerr e :: _ => .ends (.failed (.transportError e)) 3
          | .byte b2 :: _ =>
            if b2 ≠ dirReq ∧ b2 ≠ dirRsp then .ends (.failed .badDirection) 3 else .goesOn

/-- The bytes of some tokens. -/
def bytesOf : List Token → List Byte
  | [] => []
  | .byte b :: ts => b :: bytesOf ts
  | .ioerr _ :: ts => bytesOf ts

/-- R105, last block: `p` and `c` are the payload and the checksum byte taken. -/
def parseVerdict (flag : Byte) (code len : Half) (p : List Byte) (c : Byte) : ParseEnd :=
  if c ≠ crc8 (bodyHead flag code len ++ p) then
    .failed (.badChecksum (crc8 (bodyHead flag code len ++ p)) c)
  else .frame code p

/-- R105, third block, `v` being `t[8..]`: the payload and the checksum byte. -/
def parsePayload (flag : Byte) (code len : Half) (v : List Token) : Option (ParseEnd × Nat) :=
  match firstError (v.take (len.toNat + 1)) with
  | some (i, e) => some (.failed (.transportError e), 8 + i + 1)
  | none =>
    match bytesOf (v.drop len.toNat) with
    | [] => none
    | c :: _ => some (parseVerdict flag code len (bytesOf (v.take len.toNat)) c, 9 + len.toNat)

/-- R105, second block, `u` being `t[3..]`: flag, code and length. -/
def parseFixed (u : List Token) : Option (ParseEnd × Nat) :=
  match firstError (u.take 5) with
  | some (i, e) => some (.failed (.transportError e), 3 + i + 1)
  | none =>
    match u with
    | .byte f :: .byte c0 :: .byte c1 :: .byte n0 :: .byte n1 :: v =>
      parsePayload f (halfOfBytes c0 c1) (halfOfBytes n0 n1) v
    | _ => none

/-- R105: what a parse of the tokens `t` computes, and how many of them it consumes; `none` while it waits. -/
def parseTokens (early : Bool) (t : List Token) : Option (ParseEnd × Nat) :=
  match if early then headerEarly t else headerLate t with
  | .waits => none
  | .ends r n => some (r, n)
  | .goesOn => parseFixed (t.drop 3)

/-- The registers of a parser whose parse ended so (R121, R160), read in the state it left. -/
def ParseEnd.heldBy (s : State) : ParseEnd → Prop
  | .frame code payload =>
    s.rx.result = .frame ∧ s.rx.code = code ∧ s.rx.len.toNat = payload.length ∧
      s.bufBytes 0 payload.length = payload ∧ s.rx.cursor = 0 ∧
      s.rx.cause = .noCause ∧ s.rx.errComputed = 0 ∧ s.rx.errReceived = 0 ∧ s.rx.errIo = 0
  | .failed .badStart =>
    s.rx.result = .invalidPacket ∧ s.rx.cause = .badStart ∧ s.rx.errComputed = 0 ∧ s.rx.errReceived = 0 ∧
      s.rx.errIo = 0
  | .failed .badVersion =>
    s.rx.result = .invalidPacket ∧ s.rx.cause = .badVersion ∧ s.rx.errComputed = 0 ∧ s.rx.errReceived = 0 ∧
      s.rx.errIo = 0
  | .failed .badDirection =>
    s.rx.result = .invalidPacket ∧ s.rx.cause = .badDirection ∧ s.rx.errComputed = 0 ∧ s.rx.errReceived = 0 ∧
      s.rx.errIo = 0
  | .failed (.badChecksum computed received) =>
    s.rx.result = .invalidPacket ∧ s.rx.cause = .badChecksum ∧ s.rx.errComputed = computed ∧
      s.rx.errReceived = received ∧ s.rx.errIo = 0
  | .failed (.transportError e) =>
    s.rx.result = .transportError ∧ s.rx.cause = .noCause ∧ s.rx.errComputed = 0 ∧ s.rx.errReceived = 0 ∧
      s.rx.errIo = e

/-! ### Runs -/

/-- `n` steps of the machine, up to the first stop. -/
def runSteps : Nat → State → Result
  | 0, s => .next s
  | n + 1, s =>
    match step s with
    | .next s' => runSteps n s'
    | .fault f => .fault f
    | .refused r => .refused r

/-! ### Scalars in a payload -/

/-- A scalar of one of the three widths (R141 to R143). -/
inductive Scalar where
  | s8 (v : Byte)
  | s16 (v : Half)
  | s32 (v : Word)
  deriving DecidableEq, Repr

/-- The bytes a scalar is in a payload (R141 to R143). -/
def Scalar.put : Scalar → List Byte
  | .s8 v => put8 v
  | .s16 v => put16 v
  | .s32 v => put32 v

/-- The read of the same width (R136 to R138). -/
def Scalar.getter : Scalar → Instr
  | .s8 _ => .rxGet8
  | .s16 _ => .rxGet16
  | .s32 _ => .rxGet32

/-- The value, zero-extended, as the read's response carries it (R136 to R138). -/
def Scalar.value : Scalar → Word
  | .s8 v => v.setWidth 32
  | .s16 v => v.setWidth 32
  | .s32 v => v

/-- The payload of a record or a sequence: the concatenation of its scalars' bytes in order (R144, R147). -/
def putAll : List Scalar → List Byte
  | [] => []
  | x :: xs => x.put ++ putAll xs

/-- Some instructions executed one after the other, up to the first stop. -/
def execAll : List Instr → State → Result
  | [], s => .next s
  | i :: is, s =>
    match exec i s with
    | .next s' => execAll is s'
    | .fault f => .fault f
    | .refused r => .refused r

end Sys2Proof.Machine
end

