-- ==== Sys2Proof/Safety.lean ====
section
/-! DEFINITION. What a safe state is: the invariants of R28 as the spec lists them, and an invariant of the machine
that implies them and that every step keeps. Both speak of bytes that no register holds (the flag byte of the frame
being parsed, R27, and the payload bytes already emitted): a history records them beside the state. -/

namespace Sys2Proof

open Sys2Proof.Machine

/-! ### What no register holds -/

/-- Bytes that passed through the block and that R28 and R86 speak of. No part of the machine. -/
structure History where
  /-- the flag byte the parser took last (R28 item 2: "the flag byte `f` that was received") -/
  flag : Byte
  /-- the payload bytes emitted since the last accepted TX.BUILD (R95: "the `p` taken from `txp`") -/
  sent : List Byte
  deriving DecidableEq, Repr

/-- How many tokens before the flag byte the parser stands, if it has not taken it yet (R109 to R114). -/
def tokensBeforeFlag : RxPhase → Option Nat
  | .hdr0 => some 3
  | .hdr1 => some 2
  | .hdr2 => some 1
  | .flag => some 0
  | .idle | .codeLo | .codeHi | .lenLo | .lenHi | .payload | .crc => none

/-- The flag byte taken between two successive states, `before` where none was. -/
def flagTaken (before : Byte) (s t : State) : Byte :=
  match tokensBeforeFlag s.rx.phase with
  | none => before
  | some k =>
    match (s.rxs.take (s.rxs.length - t.rxs.length))[k]? with
    | some (.byte b) => b
    | _ => before

/-- The payload bytes emitted up to the second of two successive states; a build that has just started has emitted
none. -/
def payloadSent (before : List Byte) (s t : State) : List Byte :=
  if t.tx.phase = .hdr0 then [] else before ++ s.txp.take (s.txp.length - t.txp.length)

/-- The history after a step from `s` to `t`. -/
def History.after (h : History) (s t : State) : History :=
  { flag := flagTaken h.flag s t, sent := payloadSent h.sent s t }

/-- The history after `n` steps. -/
def historyAfter : Nat → History → State → History
  | 0, h, _ => h
  | n + 1, h, s =>
    match step s with
    | .next t => historyAfter n (h.after s t) t
    | .fault _ => h
    | .refused _ => h

/-! ### R28 as it stands -/

/-- R28 item 1. -/
def busyHoldsNoResult (s : State) : Prop :=
  s.rx.phase ≠ .idle → s.rx.result = .none

/-- R28 item 2, `f` being the flag byte that was received. -/
def heldFrameIsValid (f : Byte) (s : State) : Prop :=
  s.rx.result = .frame →
    s.rx.cursor.toNat ≤ s.rx.len.toNat ∧ s.rx.cnt = s.rx.len ∧
      crc8 (bodyHead f s.rx.code s.rx.len ++ s.bufBytes 0 s.rx.len.toNat) = s.rx.crc

/-- R28 item 3. -/
def errorsMatchResult (s : State) : Prop :=
  (s.rx.result ≠ .invalidPacket → s.rx.cause = .noCause) ∧
    (s.rx.cause ≠ .badChecksum → s.rx.errComputed = 0 ∧ s.rx.errReceived = 0) ∧
    (s.rx.cause = .badChecksum → s.rx.errComputed ≠ s.rx.errReceived) ∧
    (s.rx.result ≠ .transportError → s.rx.errIo = 0)

/-- R28 item 4. -/
def countsBelowLength (s : State) : Prop :=
  (s.rx.phase = .payload → s.rx.cnt.toNat < s.rx.len.toNat) ∧
    (s.tx.phase = .payload → s.tx.cnt.toNat < s.tx.len.toNat)

/-- R28 item 5. -/
def causeIsNotReserved (s : State) : Prop :=
  s.rx.cause.code ≠ 5 ∧ s.rx.cause.code ≠ 6 ∧ s.rx.cause.code ≠ 7

/-- The five items of R28, `f` being the flag byte that was received. -/
def InvariantsR28 (f : Byte) (s : State) : Prop :=
  busyHoldsNoResult s ∧ heldFrameIsValid f s ∧ errorsMatchResult s ∧ countsBelowLength s ∧ causeIsNotReserved s

/-! ### The machine's invariant -/

/-- The first `n` bytes of RX_BUF have been written since reset (R37). -/
def bytesWritten (s : State) (n : Nat) : Prop :=
  ∀ i < n, (Memory.read s.rx.buf i).isSome = true

/-- RX_CRC is the CRC of the body bytes taken so far, `f` being the flag byte among them (R86, R120). -/
def rxCrcTracksBody (f : Byte) (s : State) : Prop :=
  match s.rx.phase with
  | .idle => s.rx.result = .frame → s.rx.cnt = s.rx.len ∧ s.rx.cursor.toNat ≤ s.rx.len.toNat ∧
      bytesWritten s s.rx.len.toNat ∧
      crc8 (bodyHead f s.rx.code s.rx.len ++ s.bufBytes 0 s.rx.len.toNat) = s.rx.crc
  | .hdr0 => True
  | .hdr1 => True
  | .hdr2 => True
  | .flag => s.rx.crc = 0
  | .codeLo => crc8 [f] = s.rx.crc
  | .codeHi => crc8 [f, loByte s.rx.code] = s.rx.crc
  | .lenLo => crc8 [f, loByte s.rx.code, hiByte s.rx.code] = s.rx.crc
  | .lenHi => crc8 [f, loByte s.rx.code, hiByte s.rx.code, loByte s.rx.len] = s.rx.crc
  | .payload => s.rx.cnt.toNat < s.rx.len.toNat ∧ bytesWritten s s.rx.cnt.toNat ∧
      crc8 (bodyHead f s.rx.code s.rx.len ++ s.bufBytes 0 s.rx.cnt.toNat) = s.rx.crc
  | .crc => s.rx.cnt = s.rx.len ∧ bytesWritten s s.rx.len.toNat ∧
      crc8 (bodyHead f s.rx.code s.rx.len ++ s.bufBytes 0 s.rx.len.toNat) = s.rx.crc

/-- With HDR_EARLY_ABORT = 1 the first two header bytes have been checked as they came (R111). -/
def earlyHeaderChecked (s : State) : Prop :=
  Config.hdrEarlyAbort = true →
    ((s.rx.phase = .hdr1 ∨ s.rx.phase = .hdr2) → s.rx.h0 = sof) ∧ (s.rx.phase = .hdr2 → s.rx.h1 = ver)

/-- TX_CRC is the CRC of the body bytes emitted so far, `p` being the payload bytes among them, and TX_CNT counts those
(R13, R86, R95). -/
def txCrcTracksBody (p : List Byte) (s : State) : Prop :=
  match s.tx.phase with
  | .idle => True
  | .hdr0 => p = [] ∧ s.tx.cnt = 0
  | .hdr1 => p = [] ∧ s.tx.cnt = 0
  | .hdr2 => p = [] ∧ s.tx.cnt = 0
  | .flag => p = [] ∧ s.tx.cnt = 0 ∧ s.tx.crc = 0
  | .codeLo => p = [] ∧ s.tx.cnt = 0 ∧ s.tx.crc = crc8 [flagTx]
  | .codeHi => p = [] ∧ s.tx.cnt = 0 ∧ s.tx.crc = crc8 [flagTx, loByte s.tx.code]
  | .lenLo => p = [] ∧ s.tx.cnt = 0 ∧ s.tx.crc = crc8 [flagTx, loByte s.tx.code, hiByte s.tx.code]
  | .lenHi => p = [] ∧ s.tx.cnt = 0 ∧
      s.tx.crc = crc8 [flagTx, loByte s.tx.code, hiByte s.tx.code, loByte s.tx.len]
  | .payload => s.tx.cnt.toNat < s.tx.len.toNat ∧ p.length = s.tx.cnt.toNat ∧
      crc8 (bodyHead flagTx s.tx.code s.tx.len ++ p) = s.tx.crc
  | .crc => s.tx.cnt = s.tx.len ∧ p.length = s.tx.len.toNat ∧
      crc8 (bodyHead flagTx s.tx.code s.tx.len ++ p) = s.tx.crc

/-- The invariant of the machine, for a state and the history that led to it. -/
structure MachineInv (h : History) (s : State) : Prop where
  busy : busyHoldsNoResult s
  errors : errorsMatchResult s
  named : s.rx.result = .invalidPacket → s.rx.cause ≠ .noCause
  rxCrc : rxCrcTracksBody h.flag s
  early : earlyHeaderChecked s
  txCrc : txCrcTracksBody h.sent s
  mem : Memory.wf s.rx.buf

/-- States, with their history, that the machine gets to from reset in some number of steps, for some schedule and
some behaviour of the environment (the agenda). -/
def Reachable (h : History) (s : State) : Prop :=
  ∃ (agenda : List Turn) (n : Nat) (h₀ : History),
    runSteps n { State.reset with agenda := agenda } = .next s ∧
      h = historyAfter n h₀ { State.reset with agenda := agenda }

end Sys2Proof
end

