-- ==== Sys2Proof/Certificates/Slice0/Obligations.lean ====
section
/-! DEFINITION. The statements about the model, from the numbered rules of spec/. A response word is written
`0#4 ++ value` for OK and as its number for the other statuses (R66, R67). -/

open Sys2Proof Sys2Proof.Machine

/-! ### Encoding -/

/-- Decoding the encoding of an instruction gives it back, every operand at every value the encoding admits: a frame's
payload of up to 65535 bytes and any checksum byte (R50, R52, R59, R63). -/
def Obligations.DecodeOfEncode : Prop :=
  ∀ i : Instr, i.lengthFits = true → decode (encode i) = .ok i

/-- What a word or a byte sequence decodes to has exactly those bits as its encoding (R51, R52, R63). -/
def Obligations.EncodeOfDecode : Prop :=
  (∀ (w : PortWord) (i : Instr), decodeCmd w = .ok i → encode i = .cmdWord w) ∧
    (∀ (bytes after : List Byte) (i : Instr), decodeFrame bytes = .ok (i, after) →
      i.lengthFits = true ∧ ∃ frame : List Byte, encode i = .wire frame ∧ bytes = frame ++ after)

/-- R63: a word is legal exactly if it selects a row of the table, it selects no other row, the instruction is that
row's, and the operands are the bits the row names. -/
def Obligations.CommandWordSelectsOneRow : Prop :=
  (∀ w : PortWord, (∃ e, decodeCmd w = .error e) ↔ ∀ r ∈ cmdRows, r.selects w.toNat = false) ∧
    (∀ (w : PortWord) (i : Instr), decodeCmd w = .ok i →
      ∃ r ∈ cmdRows, r.mnemonic = i.mnemonic ∧ r.selects w.toNat = true ∧
        ∀ r' ∈ cmdRows, r'.selects w.toNat = true → r' = r) ∧
    (∀ (w : PortWord) (b : Byte), decodeCmd w = .ok (.crcUpdate b) → b = w.extractLsb' 0 8) ∧
    (∀ (w : PortWord) (code len : Half), decodeCmd w = .ok (.txBuild code len) →
      code = w.extractLsb' 0 16 ∧ len = w.extractLsb' 16 16)

/-- R64: the complete list of reserved command words; each is answered ILLEGAL_COMMAND and changes nothing. -/
def Obligations.ReservedCommandWords : Prop :=
  (∀ w : PortWord, (∃ e, decodeCmd w = .error e) ↔
    (w.extractLsb' 32 4 ∈ [0x0#4, 0xE#4, 0xF#4] ∨
      (w.extractLsb' 32 4 = 0x2#4 ∧ w.extractLsb' 8 24 ≠ 0#24) ∨
      (w.extractLsb' 32 4 ∈ [0x1#4, 0x3#4, 0x5#4, 0x6#4, 0x7#4, 0x8#4, 0x9#4, 0xA#4, 0xB#4, 0xC#4, 0xD#4] ∧
        w.extractLsb' 0 32 ≠ 0#32))) ∧
    (∀ (w : PortWord) (e : DecodeError) (s : State), decodeCmd w = .error e →
      runCommand w s = .next { s with rsp := s.rsp ++ [0x400000000#36] }) ∧
    (∃ e, decodeCmd 0#36 = .error e) ∧ (∃ e, decodeCmd (BitVec.allOnes 36) = .error e)

/-- Words and frames written out from R63, R50 and R55 decode to the instructions they stand for. -/
def Obligations.SampleEncodingsDecode : Prop :=
  decodeCmd 0x2000000FF#36 = .ok (.crcUpdate 0xFF) ∧
    decodeCmd 0x4000200C9#36 = .ok (.txBuild 0x00C9 0x0002) ∧
    decodeCmd 0x600000000#36 = .ok .rxParse ∧
    decodeCmd 0xA00000000#36 = .ok .rxGet16 ∧
    decodeFrame [0x24, 0x58, 0x3C, 0x00, 0xC9, 0x00, 0x02, 0x00, 0x34, 0x12, 0x47] =
      .ok (.frameReq 0x00 0x00C9 [0x34, 0x12] 0x47, []) ∧
    decodeFrame [0x24, 0x58, 0x3E, 0x00, 0x01, 0x00, 0x00, 0x00, 0x45] = .ok (.frameRsp 0x00 0x0001 [] 0x45, [])

/-! ### The step runs the decoded instruction -/

/-- CMD's step: the word at the head of `cmd` is removed and decoded; a legal one is executed, an illegal one answered
ILLEGAL_COMMAND with nothing else changed (R43, R60). That the agenda says whose turn it is is the model's choice
(log 3). -/
def Obligations.StepRunsDecodedCommand : Prop :=
  ∀ (s : State) (w : PortWord) (rest : List PortWord) (later : List Turn),
    s.agenda = .agent .cmd :: later → s.cmd = w :: rest →
    (∀ i, decodeCmd w = .ok i → step s = exec i { s with agenda := later, cmd := rest }) ∧
      (∀ e, decodeCmd w = .error e →
        step s = .next { s with agenda := later, cmd := rest, rsp := s.rsp ++ [0x400000000#36] })

/-- A frame turn with a whole wire frame at the head of `rxs` runs that frame's instruction on the state with the
frame's tokens removed, whatever tokens follow them. That RXSEQ may take a whole frame in one turn is the model's choice
(log 5). -/
def Obligations.StepRunsFrameAtHead : Prop :=
  ∀ (s : State) (i : Instr) (bytes : List Byte) (rest : List Token) (later : List Turn),
    i.lengthFits = true → encode i = .wire bytes → s.rxs = bytes.map .byte ++ rest → s.agenda = .frame :: later →
    step s = exec i { s with agenda := later, rxs := rest }

/-- A turn of TXSEQ, of RXSEQ or of the environment is exactly that agent's one step (R43, R170); with the agenda used up
some inside agent has the turn. The agenda and the free choice are the model's (log 3), the events log 6. -/
def Obligations.StepGivesTurnToAgent : Prop :=
  ∀ (s : State) (later : List Turn),
    (s.agenda = .agent .txseq :: later → step s = .next (txStep { s with agenda := later })) ∧
      (s.agenda = .agent .rxseq :: later → step s = rxStep { s with agenda := later }) ∧
      (∀ e, s.agenda = .env e :: later → step s = .next (envStep e { s with agenda := later })) ∧
      (s.agenda = [] → ∃ a, step s = agentStep a { s with choices := s.choices + 1 })

/-- Running a wire frame as one instruction (the model's choice, log 5) is the same as RXSEQ taking its tokens one step
at a time, in every state of the parser (R105, R107). -/
def Obligations.FrameTurnIsTokenSteps : Prop :=
  ∀ (s : State) (i : Instr) (bytes : List Byte) (rest : List Token) (later : List Turn),
    i.lengthFits = true → encode i = .wire bytes → s.rxs = bytes.map .byte ++ rest →
    step { s with agenda := .frame :: later } =
      runSteps bytes.length
        { s with agenda := List.replicate bytes.length (.agent .rxseq) ++ later }

/-! ### The checksum unit -/

/-- R78: one update bit by bit, and as the XOR of the columns that the 1 bits of `s ^ b` select. -/
def Obligations.CrcUpdateClosedForm : Prop :=
  (∀ s b t n : Byte, t = s ^^^ b → n = crc8Update s b →
    n.getLsbD 7 = (t.getLsbD 7 ^^ t.getLsbD 6 ^^ t.getLsbD 5 ^^ t.getLsbD 2 ^^ t.getLsbD 0) ∧
    n.getLsbD 6 = (t.getLsbD 7 ^^ t.getLsbD 4 ^^ t.getLsbD 2 ^^ t.getLsbD 1 ^^ t.getLsbD 0) ∧
    n.getLsbD 5 = (t.getLsbD 7 ^^ t.getLsbD 5 ^^ t.getLsbD 3 ^^ t.getLsbD 2 ^^ t.getLsbD 1) ∧
    n.getLsbD 4 = (t.getLsbD 6 ^^ t.getLsbD 4 ^^ t.getLsbD 2 ^^ t.getLsbD 1 ^^ t.getLsbD 0) ∧
    n.getLsbD 3 = (t.getLsbD 7 ^^ t.getLsbD 6 ^^ t.getLsbD 3 ^^ t.getLsbD 2 ^^ t.getLsbD 1) ∧
    n.getLsbD 2 =
      (t.getLsbD 7 ^^ t.getLsbD 6 ^^ t.getLsbD 5 ^^ t.getLsbD 2 ^^ t.getLsbD 1 ^^ t.getLsbD 0) ∧
    n.getLsbD 1 = (t.getLsbD 7 ^^ t.getLsbD 4 ^^ t.getLsbD 2 ^^ t.getLsbD 1) ∧
    n.getLsbD 0 = (t.getLsbD 7 ^^ t.getLsbD 6 ^^ t.getLsbD 3 ^^ t.getLsbD 1 ^^ t.getLsbD 0)) ∧
    (∀ s b : Byte, crc8Update s b = crc8Update 0 (s ^^^ b)) ∧
    (∀ x : Byte, crc8Update 0 x =
      (if x.getLsbD 0 then 0xD5 else 0) ^^^ (if x.getLsbD 1 then 0x7F else 0) ^^^
      (if x.getLsbD 2 then 0xFE else 0) ^^^ (if x.getLsbD 3 then 0x29 else 0) ^^^
      (if x.getLsbD 4 then 0x52 else 0) ^^^ (if x.getLsbD 5 then 0xA4 else 0) ^^^
      (if x.getLsbD 6 then 0x9D else 0) ^^^ (if x.getLsbD 7 then 0xEF else 0))

/-- R80: the seven laws of the checksum function, in the order of the rule. -/
def Obligations.CrcLaws : Prop :=
  (∀ s b : Byte, crc8Update s b = crc8Update (s ^^^ b) 0 ∧ crc8Update s b = crc8Update 0 (s ^^^ b)) ∧
    (crc8Update 0 0 = 0 ∧
      (∀ x y : Byte, crc8Update 0 (x ^^^ y) = crc8Update 0 x ^^^ crc8Update 0 y) ∧
      (∀ s1 s2 b1 b2 : Byte,
        crc8Update (s1 ^^^ s2) (b1 ^^^ b2) = crc8Update s1 b1 ^^^ crc8Update s2 b2) ∧
      (∀ m1 m2 : List Byte, m1.length = m2.length →
        crc8 (List.zipWith (· ^^^ ·) m1 m2) = crc8 m1 ^^^ crc8 m2)) ∧
    (Function.Bijective (crc8Update 0) ∧ (∀ b, Function.Bijective fun s => crc8Update s b) ∧
      (∀ s, Function.Bijective fun b => crc8Update s b)) ∧
    (crc8Update 0 0 = 0 ∧ ∀ m : List Byte, crc8 (0 :: m) = crc8 m) ∧
    ((∀ s : Byte, crc8Update s s = 0) ∧ ∀ m : List Byte, crc8 (m ++ [crc8 m]) = 0) ∧
    (∀ m1 m2 : List Byte, crc8 (m1 ++ m2) = crc8From (crc8 m1) m2) ∧
    (∀ (before after : List Byte) (x : Byte) (k : Nat), k < 8 →
      crc8 (before ++ (x ^^^ BitVec.twoPow 8 k) :: after) ≠ crc8 (before ++ x :: after))

/-- R81: CRC.CLEAR zeroes CRC_ACC, answers OK 0 and changes nothing else. -/
def Obligations.CrcClearEffect : Prop :=
  ∀ s : State, exec .crcClear s = .next { s with crcAcc := 0x00, rsp := s.rsp ++ [0#4 ++ 0#32] }

/-- R82: CRC.UPDATE replaces CRC_ACC by the updated value, answers it zero-extended and changes nothing else. -/
def Obligations.CrcUpdateEffect : Prop :=
  ∀ (b : Byte) (s : State),
    exec (.crcUpdate b) s = .next { s with
      crcAcc := crc8Update s.crcAcc b, rsp := s.rsp ++ [0#4 ++ (0#24 ++ crc8Update s.crcAcc b)] }

/-- R83: CRC.READ answers CRC_ACC zero-extended and changes nothing. -/
def Obligations.CrcReadEffect : Prop :=
  ∀ s : State, exec .crcRead s = .next { s with rsp := s.rsp ++ [0#4 ++ (0#24 ++ s.crcAcc)] }

/-- R84: CRC.CLEAR, one CRC.UPDATE per byte and CRC.READ end with the response OK `crc8` of the bytes, which CRC_ACC then
holds; every response is one word, and no other state changes. -/
def Obligations.CrcComputeAnswersFold : Prop :=
  ∀ (bytes : List Byte) (s : State), ∃ words : List PortWord, words.length = bytes.length + 1 ∧
    execAll (.crcClear :: bytes.map .crcUpdate ++ [.crcRead]) s =
      .next { s with crcAcc := crc8 bytes, rsp := s.rsp ++ words ++ [0#4 ++ (0#24 ++ crc8 bytes)] }

/-! ### The builder -/

/-- R91: TX.BUILD in T_IDLE latches its operands and starts; in any other phase it answers BUSY and changes nothing. -/
def Obligations.TxBuildEffect : Prop :=
  ∀ (code len : Half) (s : State),
    (s.tx.phase = .idle →
      exec (.txBuild code len) s = .next { s with
        tx := { s.tx with code := code, len := len, cnt := 0x0000, phase := .hdr0 },
        rsp := s.rsp ++ [0#4 ++ 0#32] }) ∧
    (s.tx.phase ≠ .idle →
      exec (.txBuild code len) s = .next { s with rsp := s.rsp ++ [0x300000000#36] })

/-- R92: TX.STATUS answers 1 while TX_PHASE is not T_IDLE and 0 otherwise, and changes nothing. -/
def Obligations.TxStatusEffect : Prop :=
  ∀ s : State,
    exec .txStatus s =
      .next { s with rsp := s.rsp ++ [0#4 ++ if s.tx.phase = .idle then 0#32 else 1#32] }

/-- R93: the eight fixed bytes, one per step, with the accumulator and the next phase. -/
def Obligations.TxFixedByteSteps : Prop :=
  ∀ s : State, s.sinkReady = true →
    (s.tx.phase = .hdr0 → txStep s = { s with
      txs := s.txs ++ [(0x24, false)], tx := { s.tx with phase := .hdr1 } }) ∧
    (s.tx.phase = .hdr1 → txStep s = { s with
      txs := s.txs ++ [(0x58, false)], tx := { s.tx with phase := .hdr2 } }) ∧
    (s.tx.phase = .hdr2 → txStep s = { s with
      txs := s.txs ++ [(0x3C, false)], tx := { s.tx with crc := 0x00, phase := .flag } }) ∧
    (s.tx.phase = .flag → txStep s = { s with
      txs := s.txs ++ [(0x00, false)], tx := { s.tx with crc := crc8Update s.tx.crc 0x00, phase := .codeLo } }) ∧
    (s.tx.phase = .codeLo → txStep s = { s with
      txs := s.txs ++ [(s.tx.code.extractLsb' 0 8, false)],
      tx := { s.tx with crc := crc8Update s.tx.crc (s.tx.code.extractLsb' 0 8), phase := .codeHi } }) ∧
    (s.tx.phase = .codeHi → txStep s = { s with
      txs := s.txs ++ [(s.tx.code.extractLsb' 8 8, false)],
      tx := { s.tx with crc := crc8Update s.tx.crc (s.tx.code.extractLsb' 8 8), phase := .lenLo } }) ∧
    (s.tx.phase = .lenLo → txStep s = { s with
      txs := s.txs ++ [(s.tx.len.extractLsb' 0 8, false)],
      tx := { s.tx with crc := crc8Update s.tx.crc (s.tx.len.extractLsb' 0 8), phase := .lenHi } }) ∧
    (s.tx.phase = .lenHi → txStep s = { s with
      txs := s.txs ++ [(s.tx.len.extractLsb' 8 8, false)],
      tx := { s.tx with crc := crc8Update s.tx.crc (s.tx.len.extractLsb' 8 8),
                        phase := if s.tx.len = 0 then .crc else .payload } })

/-- R94, R95, R36: a payload byte goes from `txp` to `txs` unchanged and into the accumulator; the checksum byte ends the
frame with `last`; TXSEQ waits, changing nothing, for a payload byte and for SINK. The sum TX_CNT + 1 is of 16 bits:
that a payload step at TX_CNT = 65535 wraps it to 0, a step that R13, R94 and R28 item 4 exclude, is the model's reading
(log 12). -/
def Obligations.TxPayloadAndChecksumSteps : Prop :=
  ∀ s : State,
    (s.sinkReady = true → s.tx.phase = .payload → ∀ b rest, s.txp = b :: rest →
      txStep s = { s with
        txp := rest, txs := s.txs ++ [(b, false)],
        tx := { s.tx with crc := crc8Update s.tx.crc b, cnt := s.tx.cnt + 1,
                          phase := if s.tx.cnt + 1 = s.tx.len then .crc else .payload } }) ∧
    (s.sinkReady = true → s.tx.phase = .crc →
      txStep s = { s with txs := s.txs ++ [(s.tx.crc, true)], tx := { s.tx with phase := .idle } }) ∧
    (s.tx.phase = .payload → s.txp = [] → txStep s = s) ∧
    (s.sinkReady = false → txStep s = s) ∧
    (s.tx.phase = .idle → txStep s = s)

/-- R96: an accepted TX.BUILD with its payload on `txp` emits exactly `build(code, p)`, `last` on the final byte only,
in 9 + len steps of TXSEQ, taking exactly those len bytes; T_IDLE is not reached before. The schedule is the agenda's, the
model's choice (log 3); SINK is ready throughout (log 6) and the payload already waits on `txp`. -/
def Obligations.TxBuildEmitsBuiltFrame : Prop :=
  ∀ (s : State) (w : PortWord) (code len : Half) (p more : List Byte) (cmds : List PortWord) (later : List Turn),
    decodeCmd w = .ok (.txBuild code len) → s.cmd = w :: cmds → s.tx.phase = .idle → s.sinkReady = true →
    s.txp = p ++ more → p.length = len.toNat →
    runSteps (1 + (9 + p.length))
      { s with agenda := .agent .cmd :: List.replicate (9 + p.length) (.agent .txseq) ++ later } =
      .next { s with
        agenda := later, cmd := cmds, rsp := s.rsp ++ [0#4 ++ 0#32], txp := more,
        txs := s.txs ++ markLast (buildFrame code p),
        tx := { phase := .idle, code := code, len := len, cnt := len, crc := frameChecksum 0x00 code p } } ∧
    (∀ k < 9 + p.length, ∃ t,
      runSteps (1 + k)
        { s with agenda := .agent .cmd :: List.replicate (9 + p.length) (.agent .txseq) ++ later } = .next t ∧
      t.tx.phase ≠ .idle)

/-- R41, R46, R100: while a frame is being emitted, no turn but TXSEQ's own and reset touches the builder's registers,
appends to `txs` or takes from `txp`. -/
def Obligations.BuildInProgressUndisturbed : Prop :=
  ∀ (s t : State) (turn : Turn), s.tx.phase ≠ .idle → turn ≠ .agent .txseq → turn ≠ .env .reset →
    takeTurn turn s = .next t →
    t.tx = s.tx ∧ (t.txs = s.txs ∨ (turn = .env .sinkTake ∧ t.txs = s.txs.drop 1)) ∧
      (t.txp = s.txp ∨ ∃ b, turn = .env (.hostPayload b) ∧ t.txp = s.txp ++ [b])

/-! ### The parser -/

/-- R106: RX.PARSE starts a parse when none runs and no outcome is held, clearing the error registers; otherwise it
answers BUSY and changes nothing. -/
def Obligations.RxParseEffect : Prop :=
  ∀ s : State,
    (s.rx.phase = .idle → s.rx.result = .none →
      exec .rxParse s = .next { s with
        rx := { s.rx with cause := .noCause, errComputed := 0x00, errReceived := 0x00, errIo := 0x00,
                          phase := .hdr0 },
        rsp := s.rsp ++ [0#4 ++ 0#32] }) ∧
    ((s.rx.phase ≠ .idle ∨ s.rx.result ≠ .none) →
      exec .rxParse s = .next { s with rsp := s.rsp ++ [0x300000000#36] })

/-- R107, R35: a step of RXSEQ that has a token removes exactly that one and writes the parser's registers only; in
R_IDLE, or with no token, it has no step. -/
def Obligations.RxStepTakesOneToken : Prop :=
  ∀ s : State,
    ((s.rx.phase = .idle ∨ s.rxs = []) → rxStep s = .next s) ∧
      (∀ t rest u, s.rx.phase ≠ .idle → s.rxs = t :: rest → rxStep s = .next u →
        u = { s with rxs := rest, rx := u.rx })

/-- R108: an error token ends the parse in any phase with TRANSPORT_ERROR and its code, and writes nothing else. -/
def Obligations.RxTransportErrorStep : Prop :=
  ∀ (s : State) (e : Byte) (rest : List Token), s.rx.phase ≠ .idle → s.rxs = .ioerr e :: rest →
    rxStep s = .next { s with
      rxs := rest, rx := { s.rx with result := .transportError, errIo := e, phase := .idle } }

/-- R109, R110: the first two header bytes are stored; with HDR_EARLY_ABORT = 1 (`early`) a wrong one ends the parse at
once. RXSEQ's step is the one for the machine's own HDR_EARLY_ABORT. -/
def Obligations.RxHeaderByteSteps : Prop :=
  (∀ s : State, rxStep s = rxStepWith Config.hdrEarlyAbort s) ∧
  ∀ (early : Bool) (s : State) (b : Byte) (rest : List Token), s.rxs = .byte b :: rest →
    (s.rx.phase = .hdr0 →
      ((early = true ∧ b ≠ 0x24) →
        rxStepWith early s = .next { s with rxs := rest, rx := { s.rx with
          h0 := b, result := .invalidPacket, cause := .badStart, phase := .idle } }) ∧
      (¬(early = true ∧ b ≠ 0x24) →
        rxStepWith early s = .next { s with rxs := rest, rx := { s.rx with h0 := b, phase := .hdr1 } })) ∧
    (s.rx.phase = .hdr1 →
      ((early = true ∧ b ≠ 0x58) →
        rxStepWith early s = .next { s with rxs := rest, rx := { s.rx with
          h1 := b, result := .invalidPacket, cause := .badVersion, phase := .idle } }) ∧
      (¬(early = true ∧ b ≠ 0x58) →
        rxStepWith early s = .next { s with rxs := rest, rx := { s.rx with h1 := b, phase := .hdr2 } }))

/-- R111: the header check, the lowest wrong offset naming the cause; both directions pass. -/
def Obligations.RxHeaderCheckStep : Prop :=
  ∀ (s : State) (b : Byte) (rest : List Token), s.rxs = .byte b :: rest → s.rx.phase = .hdr2 →
    rxStep s = .next { s with rxs := rest, rx :=
      if s.rx.h0 ≠ 0x24 then { s.rx with result := .invalidPacket, cause := .badStart, phase := .idle }
      else if s.rx.h1 ≠ 0x58 then { s.rx with result := .invalidPacket, cause := .badVersion, phase := .idle }
      else if b ≠ 0x3C ∧ b ≠ 0x3E then
        { s.rx with result := .invalidPacket, cause := .badDirection, phase := .idle }
      else { s.rx with crc := 0x00, phase := .flag } }

/-- R114 to R118: flag, code and length enter the checksum and, but for the flag, their registers, low byte first. -/
def Obligations.RxFixedFieldSteps : Prop :=
  ∀ (s : State) (b : Byte) (rest : List Token), s.rxs = .byte b :: rest →
    (s.rx.phase = .flag →
      rxStep s = .next { s with rxs := rest, rx := { s.rx with crc := crc8Update s.rx.crc b, phase := .codeLo } }) ∧
    (s.rx.phase = .codeLo →
      rxStep s = .next { s with rxs := rest, rx := { s.rx with
        code := s.rx.code.extractLsb' 8 8 ++ b, crc := crc8Update s.rx.crc b, phase := .codeHi } }) ∧
    (s.rx.phase = .codeHi →
      rxStep s = .next { s with rxs := rest, rx := { s.rx with
        code := b ++ s.rx.code.extractLsb' 0 8, crc := crc8Update s.rx.crc b, phase := .lenLo } }) ∧
    (s.rx.phase = .lenLo →
      rxStep s = .next { s with rxs := rest, rx := { s.rx with
        len := s.rx.len.extractLsb' 8 8 ++ b, crc := crc8Update s.rx.crc b, phase := .lenHi } }) ∧
    (s.rx.phase = .lenHi →
      rxStep s = .next { s with rxs := rest, rx := { s.rx with
        len := b ++ s.rx.len.extractLsb' 0 8, crc := crc8Update s.rx.crc b, cnt := 0x0000,
        phase := if b ++ s.rx.len.extractLsb' 0 8 = 0#16 then .crc else .payload } })

/-- R119: a payload byte is stored at index RX_CNT, no other byte of RX_BUF changes, and the phase is left with the last
byte. At RX_CNT = 65535, which R28 item 4 excludes, the index does not exist and the machine stops (log 9). -/
def Obligations.RxPayloadStep : Prop :=
  ∀ (s : State) (b : Byte) (rest : List Token), s.rxs = .byte b :: rest → s.rx.phase = .payload →
    (s.rx.cnt.toNat < 65535 →
      ∃ t, rxStep s = .next t ∧
        (∀ a, t.bufByte a = if a = s.rx.cnt.toNat then b else s.bufByte a) ∧
        t = { s with rxs := rest, rx := { s.rx with
          buf := t.rx.buf, crc := crc8Update s.rx.crc b, cnt := s.rx.cnt + 1,
          phase := if s.rx.cnt + 1 = s.rx.len then .crc else .payload } }) ∧
    (s.rx.cnt.toNat = 65535 → rxStep s = .fault (.rxBufIndex 65535))

/-- R120 to R122: on a match the frame is delivered in that one step; on a difference both values are reported. -/
def Obligations.RxChecksumStep : Prop :=
  ∀ (s : State) (b : Byte) (rest : List Token), s.rxs = .byte b :: rest → s.rx.phase = .crc →
    (b = s.rx.crc →
      rxStep s = .next { s with rxs := rest, rx := { s.rx with
        result := .frame, cursor := 0x0000, phase := .idle } }) ∧
    (b ≠ s.rx.crc →
      rxStep s = .next { s with rxs := rest, rx := { s.rx with
        result := .invalidPacket, cause := .badChecksum, errComputed := s.rx.crc, errReceived := b,
        phase := .idle } })

/-- R105: RXSEQ's steps compute `parse(t)` of the tokens, for either setting of HDR_EARLY_ABORT: a parse with a result
ends with it after exactly the tokens it consumes; one without has taken every token and is still running. The steps
are RXSEQ's turns on the agenda, the model's choice (log 3). -/
def Obligations.ParserComputesReference : Prop :=
  ∀ (s : State) (later : List Turn), s.rx.phase = .hdr0 → s.rx.result = .none → s.rx.cause = .noCause →
    s.rx.errComputed = 0 → s.rx.errReceived = 0 → s.rx.errIo = 0 →
    match parseTokens Config.hdrEarlyAbort s.rxs with
    | some (r, n) => n ≤ s.rxs.length ∧ ∃ regs : RxRegs,
        runSteps n { s with agenda := List.replicate n (.agent .rxseq) ++ later } =
          .next { s with agenda := later, rxs := s.rxs.drop n, rx := regs } ∧
        regs.phase = .idle ∧ r.heldBy { s with rx := regs } ∧
        (∀ k < n, ∃ u, runSteps k { s with agenda := List.replicate n (.agent .rxseq) ++ later } = .next u ∧
          u.rx.phase ≠ .idle)
    | none => ∃ regs : RxRegs,
        runSteps s.rxs.length
          { s with agenda := List.replicate s.rxs.length (.agent .rxseq) ++ later } =
          .next { s with agenda := later, rxs := [], rx := regs } ∧
        regs.phase ≠ .idle ∧ regs.result = .none

/-- R127: a frame of either direction, with any flag, whose checksum is right, met at offset 0, is delivered with its
code, its payload and the cursor at 0; all its tokens are consumed, and only the parser's registers and the first
`length` bytes of RX_BUF change. The frame is run as one instruction, the model's choice (log 5). -/
def Obligations.RightFrameIsDelivered : Prop :=
  ∀ (s : State) (flag : Byte) (code : Half) (p : List Byte) (i : Instr), p.length ≤ 65535 → s.rx.phase = .hdr0 →
    (i = .frameReq flag code p (frameChecksum flag code p) ∨ i = .frameRsp flag code p (frameChecksum flag code p)) →
    ∃ t, exec i s = .next t ∧
      t = { s with rx := { s.rx with
        phase := .idle, h0 := 0x24, h1 := 0x58, code := code, len := BitVec.ofNat 16 p.length,
        cnt := BitVec.ofNat 16 p.length, crc := frameChecksum flag code p, cursor := 0x0000, result := .frame,
        buf := t.rx.buf } } ∧
      t.bufBytes 0 p.length = p ∧ (∀ a, p.length ≤ a → t.bufByte a = s.bufByte a)

/-- R122: the same frame with any other checksum byte ends the parse with BAD_CHECKSUM and both values; all its tokens
are consumed. The frame is run as one instruction, the model's choice (log 5). -/
def Obligations.WrongChecksumIsReported : Prop :=
  ∀ (s : State) (flag : Byte) (code : Half) (p : List Byte) (c : Byte) (i : Instr), p.length ≤ 65535 →
    s.rx.phase = .hdr0 → c ≠ frameChecksum flag code p → (i = .frameReq flag code p c ∨ i = .frameRsp flag code p c) →
    ∃ t, exec i s = .next t ∧
      t = { s with rx := { s.rx with
        phase := .idle, h0 := 0x24, h1 := 0x58, code := code, len := BitVec.ofNat 16 p.length,
        cnt := BitVec.ofNat 16 p.length, crc := frameChecksum flag code p, result := .invalidPacket,
        cause := .badChecksum, errComputed := frameChecksum flag code p, errReceived := c, buf := t.rx.buf } } ∧
      (∀ a, p.length ≤ a → t.bufByte a = s.bufByte a)

/-- R131: a frame with one bit of its flag, code or payload flipped and the checksum of the original ends the parse with
INVALID_PACKET and BAD_CHECKSUM. The frame is run as one instruction, the model's choice (log 5). -/
def Obligations.SingleBitErrorDetected : Prop :=
  ∀ (s : State) (flag flag' : Byte) (code code' : Half) (p p' : List Byte) (before after : List Byte) (x : Byte)
    (k : Nat) (i : Instr),
    p.length ≤ 65535 → p'.length = p.length → s.rx.phase = .hdr0 → k < 8 →
    frameBody flag code p = before ++ x :: after →
    frameBody flag' code' p' = before ++ (x ^^^ BitVec.twoPow 8 k) :: after →
    (i = .frameReq flag' code' p' (frameChecksum flag code p) ∨
      i = .frameRsp flag' code' p' (frameChecksum flag code p)) →
    ∃ t, exec i s = .next t ∧ t.rx.phase = .idle ∧ t.rx.result = .invalidPacket ∧ t.rx.cause = .badChecksum

/-- R107, R129: a frame that arrives while no parse runs stays queued, and nothing changes. That the frame's instruction
puts its bytes in front of `rxs` is the model's choice (log 5). -/
def Obligations.FrameWaitsWithoutParse : Prop :=
  ∀ (s : State) (flag : Byte) (code : Half) (p : List Byte) (c : Byte), s.rx.phase = .idle →
    exec (.frameReq flag code p c) s =
      .next { s with rxs := (frameBytes 0x3C flag code p c).map .byte ++ s.rxs } ∧
    exec (.frameRsp flag code p c) s =
      .next { s with rxs := (frameBytes 0x3E flag code p c).map .byte ++ s.rxs }

/-- R123: RX.STATUS answers every field in its place and changes nothing; in every state the invariant allows the value is
one of those the rule lists. -/
def Obligations.RxStatusEffect : Prop :=
  ∀ s : State, ∃ v : Word,
    exec .rxStatus s = .next { s with rsp := s.rsp ++ [0#4 ++ v] } ∧
      v.extractLsb' 0 2 = s.rx.result.code ∧ v.extractLsb' 2 3 = s.rx.cause.code ∧
      v.getLsbD 5 = decide (s.rx.phase ≠ .idle) ∧ v.extractLsb' 6 2 = 0#2 ∧
      v.extractLsb' 8 8 = s.rx.errComputed ∧ v.extractLsb' 16 8 = s.rx.errReceived ∧
      v.extractLsb' 24 8 = s.rx.errIo ∧
      ((∃ h, MachineInv h s) →
        v ∈ [0x00000000#32, 0x00000020#32, 0x00000001#32, 0x00000006#32, 0x0000000A#32, 0x0000000E#32] ∨
        (∃ cc rr : Byte, cc ≠ rr ∧ v = 0x00#8 ++ (rr ++ (cc ++ 0x12#8))) ∨
        (∃ ee : Byte, v = ee ++ 0x000003#24))

/-- R124: RX.HEAD answers length and code of the held frame, or NO_FRAME, and changes nothing. -/
def Obligations.RxHeadEffect : Prop :=
  ∀ s : State,
    (s.rx.result = .frame → exec .rxHead s = .next { s with rsp := s.rsp ++ [0#4 ++ (s.rx.len ++ s.rx.code)] }) ∧
    (s.rx.result ≠ .frame → exec .rxHead s = .next { s with rsp := s.rsp ++ [0x200000000#36] })

/-- R125: RX.RELEASE clears RX_RESULT and the four error registers, answers OK 0 and changes nothing else. -/
def Obligations.RxReleaseEffect : Prop :=
  ∀ s : State,
    exec .rxRelease s = .next { s with
      rx := { s.rx with result := .none, cause := .noCause, errComputed := 0x00, errReceived := 0x00,
                        errIo := 0x00 },
      rsp := s.rsp ++ [0#4 ++ 0#32] }

/-! ### Payload access -/

/-- R136 with the common check of R135: RX.GET8 answers NO_FRAME, TRUNCATED_PAYLOAD or the value,
and changes nothing but the cursor. TRUNCATED_PAYLOAD with RX_CURSOR = RX_LEN is the rule's; that a cursor beyond the
length, which R28 item 2 excludes, is answered so too is the model's reading (log 11). -/
def Obligations.RxGet8Effect : Prop :=
  ∀ s : State,
    (s.rx.result ≠ .frame → exec .rxGet8 s = .next { s with rsp := s.rsp ++ [0x200000000#36] }) ∧
    (s.rx.result = .frame → s.rx.len.toNat < s.rx.cursor.toNat + 1 →
      exec .rxGet8 s = .next { s with rsp := s.rsp ++ [0x100000000#36] }) ∧
    (s.rx.result = .frame → s.rx.cursor.toNat + 1 ≤ s.rx.len.toNat →
      exec .rxGet8 s = .next { s with
        rx := { s.rx with cursor := s.rx.cursor + 1 },
        rsp := s.rsp ++ [0#4 ++ (0#24 ++ s.bufByte s.rx.cursor.toNat)] })

/-- R137 with the common check of R135: RX.GET16 answers NO_FRAME, TRUNCATED_PAYLOAD or the value, the byte at the
lower index being the low byte, and changes nothing but the cursor. TRUNCATED_PAYLOAD where RX_LEN minus RX_CURSOR
is 0 or 1 is the rule's; that a cursor beyond the length, which R28 item 2 excludes, is answered so too is the model's
reading (log 11). -/
def Obligations.RxGet16Effect : Prop :=
  ∀ s : State,
    (s.rx.result ≠ .frame → exec .rxGet16 s = .next { s with rsp := s.rsp ++ [0x200000000#36] }) ∧
    (s.rx.result = .frame → s.rx.len.toNat < s.rx.cursor.toNat + 2 →
      exec .rxGet16 s = .next { s with rsp := s.rsp ++ [0x100000000#36] }) ∧
    (s.rx.result = .frame → s.rx.cursor.toNat + 2 ≤ s.rx.len.toNat →
      exec .rxGet16 s = .next { s with
        rx := { s.rx with cursor := s.rx.cursor + 2 },
        rsp := s.rsp ++
          [0#4 ++ (0#16 ++ (s.bufByte (s.rx.cursor.toNat + 1) ++ s.bufByte s.rx.cursor.toNat))] })

/-- R138 with the common check of R135: RX.GET32 answers NO_FRAME, TRUNCATED_PAYLOAD or the value, the byte at the
lower index being the low byte, and changes nothing but the cursor. TRUNCATED_PAYLOAD where RX_LEN minus RX_CURSOR
is 0 to 3 is the rule's; that a cursor beyond the length, which R28 item 2 excludes, is answered so too is the model's
reading (log 11). -/
def Obligations.RxGet32Effect : Prop :=
  ∀ s : State,
    (s.rx.result ≠ .frame → exec .rxGet32 s = .next { s with rsp := s.rsp ++ [0x200000000#36] }) ∧
    (s.rx.result = .frame → s.rx.len.toNat < s.rx.cursor.toNat + 4 →
      exec .rxGet32 s = .next { s with rsp := s.rsp ++ [0x100000000#36] }) ∧
    (s.rx.result = .frame → s.rx.cursor.toNat + 4 ≤ s.rx.len.toNat →
      exec .rxGet32 s = .next { s with
        rx := { s.rx with cursor := s.rx.cursor + 4 },
        rsp := s.rsp ++
          [0#4 ++ (s.bufByte (s.rx.cursor.toNat + 3) ++ (s.bufByte (s.rx.cursor.toNat + 2) ++
            (s.bufByte (s.rx.cursor.toNat + 1) ++ s.bufByte s.rx.cursor.toNat)))] })

/-- R139: RX.CURSOR. -/
def Obligations.RxCursorEffect : Prop :=
  ∀ s : State,
    (s.rx.result = .frame → exec .rxCursor s = .next { s with rsp := s.rsp ++ [0#4 ++ (0#16 ++ s.rx.cursor)] }) ∧
    (s.rx.result ≠ .frame → exec .rxCursor s = .next { s with rsp := s.rsp ++ [0x200000000#36] })

/-- R140: no turn but reset moves the cursor backward, save that delivering a frame sets it to 0. A read with the cursor
beyond the length, which R28 item 2 excludes, leaves it in place by the model's reading (log 11). -/
def Obligations.CursorOnlyMovesForward : Prop :=
  ∀ (s t : State) (turn : Turn), turn ≠ .env .reset → takeTurn turn s = .next t →
    s.rx.cursor.toNat ≤ t.rx.cursor.toNat ∨ (t.rx.cursor = 0 ∧ t.rx.result = .frame ∧ s.rx.phase ≠ .idle)

/-- R146: scalars put into the payload of a frame come back, one OK response each, through the reads of the same widths
in the same order; the cursor then stands at the end, and one more read of any width answers TRUNCATED_PAYLOAD. The
frame is run as one instruction, the model's choice (log 5). -/
def Obligations.ScalarRoundTrip : Prop :=
  ∀ (s : State) (code : Half) (xs : List Scalar), s.rx.phase = .hdr0 → (putAll xs).length ≤ 65535 →
    ∃ t,
      execAll (.frameReq 0x00 code (putAll xs) (frameChecksum 0x00 code (putAll xs)) :: xs.map Scalar.getter) s =
        .next t ∧
      t.rsp = s.rsp ++ xs.map (fun x => 0#4 ++ x.value) ∧ t.rx.code = code ∧ t.rx.cursor = t.rx.len ∧
      ∀ i ∈ [Instr.rxGet8, Instr.rxGet16, Instr.rxGet32],
        exec i t = .next { t with rsp := t.rsp ++ [0x100000000#36] }

/-- R37, R178: what RX_BUF holds where nothing was written is observable by no command, in any state the invariant
allows. The reset epoch that selects this free content is the model's (log 2). -/
def Obligations.UnwrittenBytesNeverObserved : Prop :=
  ∀ (h : History) (s : State) (i : Instr) (epoch : Nat), MachineInv h s → i.isCommand = true →
    ∃ t, exec i s = .next t ∧ exec i { s with bufEpoch := epoch } = .next { t with bufEpoch := epoch }

/-! ### Exceptional outcomes -/

/-- R160: the writes a `raise` stands for; in R_HDR0 and R_HDR1 with HDR_EARLY_ABORT = 1 the write of RX_H0 or RX_H1 in
that step also happens. -/
def Obligations.RaiseEntrySequence : Prop :=
  ∀ s : State,
    raise .badStart s = { s with rx := { s.rx with result := .invalidPacket, cause := .badStart, phase := .idle } } ∧
    raise .badVersion s =
      { s with rx := { s.rx with result := .invalidPacket, cause := .badVersion, phase := .idle } } ∧
    raise .badDirection s =
      { s with rx := { s.rx with result := .invalidPacket, cause := .badDirection, phase := .idle } } ∧
    (∀ k c, raise (.badChecksum k c) s = { s with rx := { s.rx with
      result := .invalidPacket, cause := .badChecksum, errComputed := k, errReceived := c, phase := .idle } }) ∧
    (∀ e, raise (.transportError e) s =
      { s with rx := { s.rx with result := .transportError, errIo := e, phase := .idle } }) ∧
    (∀ b, b ≠ 0x24 → rxHdr0 true b s = raise .badStart { s with rx := { s.rx with h0 := b } }) ∧
    (∀ b, b ≠ 0x58 → rxHdr1 true b s = raise .badVersion { s with rx := { s.rx with h1 := b } })

/-- R65, R154: every word of the command port gets exactly one response; with a status other than OK the value is 0 and
no register, buffer, stream or phase changes. -/
def Obligations.EveryCommandOneResponse : Prop :=
  ∀ (w : PortWord) (s : State), ∃ (t : State) (r : PortWord),
    runCommand w s = .next t ∧ t.rsp = s.rsp ++ [r] ∧
      (r.extractLsb' 32 4 ≠ 0#4 → r.extractLsb' 0 32 = 0#32 ∧ t = { s with rsp := s.rsp ++ [r] })

/-- R170: what CMD may write, whatever the command; RX_BUF's bytes and the streams other than `rsp` stay. -/
def Obligations.CommandsWriteOnlyTheirRegisters : Prop :=
  ∀ (w : PortWord) (s t : State), runCommand w s = .next t →
    t.tx.crc = s.tx.crc ∧ (s.tx.phase ≠ .idle → t.tx = s.tx) ∧
      t.rx.h0 = s.rx.h0 ∧ t.rx.h1 = s.rx.h1 ∧ t.rx.code = s.rx.code ∧ t.rx.len = s.rx.len ∧
      t.rx.cnt = s.rx.cnt ∧ t.rx.crc = s.rx.crc ∧ (∀ a, t.bufByte a = s.bufByte a) ∧
      (s.rx.phase ≠ .idle → t.rx.phase = s.rx.phase) ∧
      (t.rx.result = s.rx.result ∨ t.rx.result = .none) ∧ (t.rx.cause = s.rx.cause ∨ t.rx.cause = .noCause) ∧
      (t.rx.errComputed = s.rx.errComputed ∨ t.rx.errComputed = 0) ∧
      (t.rx.errReceived = s.rx.errReceived ∨ t.rx.errReceived = 0) ∧ (t.rx.errIo = s.rx.errIo ∨ t.rx.errIo = 0) ∧
      (s.rx.result ≠ .frame → t.rx.cursor = s.rx.cursor) ∧
      t.cmd = s.cmd ∧ t.rxs = s.rxs ∧ t.txp = s.txp ∧ t.txs = s.txs ∧ t.sinkReady = s.sinkReady

/-- R163, R181: an outcome held by the parser stays as it is, buffer included, under every turn but a command and reset. -/
def Obligations.HeldOutcomeStays : Prop :=
  ∀ (s t : State) (turn : Turn), s.rx.phase = .idle → turn ≠ .agent .cmd → turn ≠ .env .reset →
    takeTurn turn s = .next t → t.rx = s.rx ∧ t.bufEpoch = s.bufEpoch

/-- R162: after any outcome, RX.RELEASE and then RX.PARSE are both answered OK and a new parse runs; without the release
RX.PARSE is answered BUSY. -/
def Obligations.ReleaseMakesParserReady : Prop :=
  ∀ s : State, s.rx.phase = .idle → s.rx.result ≠ .none →
    (∃ t, execAll [.rxRelease, .rxParse] s = .next t ∧ t.rx.phase = .hdr0 ∧
      t.rsp = s.rsp ++ [0#4 ++ 0#32, 0#4 ++ 0#32]) ∧
    execAll [.rxParse] s = .next { s with rsp := s.rsp ++ [0x300000000#36] }

/-! ### Agents -/

/-- R44: the two sequencers' steps can be taken in either order with the same result, as turns on the agenda (the model's
choice, log 3). -/
def Obligations.DirectionsIndependent : Prop :=
  ∀ (s : State) (later : List Turn),
    runSteps 2 { s with agenda := .agent .txseq :: .agent .rxseq :: later } =
      runSteps 2 { s with agenda := .agent .rxseq :: .agent .txseq :: later }

/-- R170: what TXSEQ and RXSEQ may write. -/
def Obligations.SequencersWriteOnlyTheirOwn : Prop :=
  ∀ s : State,
    txStep s = { s with tx := (txStep s).tx, txp := (txStep s).txp, txs := (txStep s).txs } ∧
      (txStep s).tx.code = s.tx.code ∧ (txStep s).tx.len = s.tx.len ∧
      ∀ t, rxStep s = .next t → t = { s with rx := t.rx, rxs := t.rxs }

/-- R36, R170, R193: an agent with no enabled step leaves the state as it is (the model's choice, log 4); with SINK
ready, a state is quiescent exactly if no inside agent has a step. -/
def Obligations.WaitingChangesNothing : Prop :=
  (∀ (a : Agent) (s : State), agentEnabled a s = false → agentStep a s = .next s) ∧
    (∀ s : State, s.sinkReady = true → (quiescent s = true ↔ ∀ a, agentEnabled a s = false))

/-! ### Reset -/

/-- R175, R176: `rst` is one step that puts every register at its value in R29 and leaves the five streams as they are;
`State.reset` has the same registers. That `rst` is an event on the agenda is the model's choice (log 6). -/
def Obligations.RstResetsRegisters : Prop :=
  (∀ (s : State) (later : List Turn), s.agenda = .env .reset :: later →
    ∃ t, step s = .next t ∧ t.crcAcc = 0x00 ∧
      t.tx = { phase := .idle, code := 0x0000, len := 0x0000, cnt := 0x0000, crc := 0x00 } ∧
      t.rx = { phase := .idle, h0 := 0x00, h1 := 0x00, code := 0x0000, len := 0x0000, cnt := 0x0000, crc := 0x00,
               cursor := 0x0000, result := .none, cause := .noCause, errComputed := 0x00, errReceived := 0x00,
               errIo := 0x00, buf := t.rx.buf } ∧
      t.cmd = s.cmd ∧ t.rsp = s.rsp ∧ t.rxs = s.rxs ∧ t.txp = s.txp ∧ t.txs = s.txs) ∧
    State.reset.crcAcc = 0x00 ∧
    State.reset.tx = { phase := .idle, code := 0x0000, len := 0x0000, cnt := 0x0000, crc := 0x00 } ∧
    State.reset.rx = { phase := .idle, h0 := 0x00, h1 := 0x00, code := 0x0000, len := 0x0000, cnt := 0x0000,
                       crc := 0x00, cursor := 0x0000, result := .none, cause := .noCause, errComputed := 0x00,
                       errReceived := 0x00, errIo := 0x00, buf := State.reset.rx.buf }

/-- R177: the first observable facts after reset, and that no inside agent has a step until a command arrives, in the
model's reset state, whose queues are empty (log 6). -/
def Obligations.FirstFactsAfterReset : Prop :=
  (∀ a, agentEnabled a State.reset = false) ∧
    exec .txStatus State.reset = .next { State.reset with rsp := [0x000000000#36] } ∧
    exec .rxStatus State.reset = .next { State.reset with rsp := [0x000000000#36] } ∧
    exec .crcRead State.reset = .next { State.reset with rsp := [0x000000000#36] } ∧
    exec .rxHead State.reset = .next { State.reset with rsp := [0x200000000#36] }

/-! ### Invariants -/

/-- The machine's invariant holds at reset, whatever the history. -/
def Obligations.InvariantAtReset : Prop :=
  ∀ h : History, MachineInv h State.reset

/-- Every step keeps the machine's invariant, from every state that has it: the canonical form of RX_BUF, each checksum
accumulator equal to the CRC of the body bytes handled (with the flag byte taken and the payload bytes emitted, as the
history records them), the error registers matching the result (R28, R86). -/
def Obligations.StepKeepsInvariant : Prop :=
  ∀ (h : History) (s t : State), MachineInv h s → step s = .next t → MachineInv (h.after s t) t

/-- From a state with the invariant the machine never stops: every step answers a next state. The one fault, a write at
an index RX_BUF does not have, is the model's choice (log 9) and needs a state that R28 item 4 excludes. -/
def Obligations.InvariantNeverStops : Prop :=
  ∀ (h : History) (s : State), MachineInv h s → ∃ t, step s = .next t

/-- R28: the five invariants hold in every state that any schedule and any environment lead to from reset, with the flag
byte that was received. Schedule and environment are the agenda's, the model's choice (log 3, log 6). -/
def Obligations.ReachableStatesSatisfyR28 : Prop :=
  ∀ (h : History) (s : State), Reachable h s → InvariantsR28 h.flag s
end

