-- ==== Sys2Proof/Laws/Bits.lean ====
section
/-! SUPPORT. Zero extension, little-endian assembly and splitting, in the spelling the claims use. -/

namespace Sys2Proof.Machine

/-- The number that two appended bit strings are. -/
theorem toNat_append_add {m n : Nat} (x : BitVec m) (y : BitVec n) :
    (x ++ y).toNat = x.toNat * 2 ^ n + y.toNat := by
  rw [BitVec.toNat_append, Nat.shiftLeft_eq, Nat.mul_comm, Nat.two_pow_add_eq_or_of_lt y.isLt]

theorem zext_byte (b : Byte) : (b.setWidth 32 : Word) = 0#24 ++ b := by
  apply BitVec.eq_of_toNat_eq
  have := b.isLt
  simp only [toNat_append_add, BitVec.toNat_setWidth, BitVec.toNat_ofNat]
  omega

theorem zext_half (h : Half) : (h.setWidth 32 : Word) = 0#16 ++ h := by
  apply BitVec.eq_of_toNat_eq
  have := h.isLt
  simp only [toNat_append_add, BitVec.toNat_setWidth, BitVec.toNat_ofNat]
  omega

theorem assembleLE_one (b : Byte) : BitVec.ofNat 32 (assembleLE [b]) = (0#24 ++ b : Word) := by
  apply BitVec.eq_of_toNat_eq
  have := b.isLt
  simp only [assembleLE, toNat_append_add, BitVec.toNat_ofNat]
  omega

theorem assembleLE_two (b0 b1 : Byte) :
    BitVec.ofNat 32 (assembleLE [b0, b1]) = (0#16 ++ (b1 ++ b0) : Word) := by
  apply BitVec.eq_of_toNat_eq
  have := b0.isLt
  have := b1.isLt
  simp only [assembleLE, toNat_append_add, BitVec.toNat_ofNat]
  omega

theorem assembleLE_four (b0 b1 b2 b3 : Byte) :
    BitVec.ofNat 32 (assembleLE [b0, b1, b2, b3]) = (b3 ++ (b2 ++ (b1 ++ b0)) : Word) := by
  apply BitVec.eq_of_toNat_eq
  have := b0.isLt
  have := b1.isLt
  have := b2.isLt
  have := b3.isLt
  simp only [assembleLE, toNat_append_add, BitVec.toNat_ofNat]
  omega

theorem bufBytes_one (s : State) (a : Nat) : s.bufBytes a 1 = [s.bufByte a] := rfl

theorem bufBytes_two (s : State) (a : Nat) : s.bufBytes a 2 = [s.bufByte a, s.bufByte (a + 1)] := rfl

theorem bufBytes_four (s : State) (a : Nat) :
    s.bufBytes a 4 = [s.bufByte a, s.bufByte (a + 1), s.bufByte (a + 2), s.bufByte (a + 3)] := rfl

@[simp] theorem loByte_halfOfBytes (b0 b1 : Byte) : loByte (halfOfBytes b0 b1) = b0 := by
  apply BitVec.eq_of_toNat_eq
  have := b0.isLt
  have := b1.isLt
  simp only [loByte, halfOfBytes, BitVec.extractLsb'_toNat, toNat_append_add, Nat.shiftRight_zero]
  omega

@[simp] theorem hiByte_halfOfBytes (b0 b1 : Byte) : hiByte (halfOfBytes b0 b1) = b1 := by
  apply BitVec.eq_of_toNat_eq
  have := b0.isLt
  have := b1.isLt
  simp only [hiByte, halfOfBytes, BitVec.extractLsb'_toNat, toNat_append_add, Nat.shiftRight_eq_div_pow]
  omega

@[simp] theorem halfOfBytes_lo_hi (v : Half) : halfOfBytes (loByte v) (hiByte v) = v := by
  apply BitVec.eq_of_toNat_eq
  have := v.isLt
  simp only [loByte, hiByte, halfOfBytes, BitVec.extractLsb'_toNat, toNat_append_add,
    Nat.shiftRight_eq_div_pow]
  omega

end Sys2Proof.Machine
end

