-- ==== Sys2Proof/Laws/State.lean ====
section
/-! SUPPORT. What each shared update writes and what it keeps: one lemma per field per update, so that no later proof
unfolds a record update. -/

namespace Sys2Proof.Machine

/-! ### `respond` writes `rsp` only (R65) -/

@[simp] theorem respond_crcAcc (st : Status) (v : Word) (s : State) : (respond st v s).crcAcc = s.crcAcc := rfl
@[simp] theorem respond_tx (st : Status) (v : Word) (s : State) : (respond st v s).tx = s.tx := rfl
@[simp] theorem respond_rx (st : Status) (v : Word) (s : State) : (respond st v s).rx = s.rx := rfl
@[simp] theorem respond_cmd (st : Status) (v : Word) (s : State) : (respond st v s).cmd = s.cmd := rfl
@[simp] theorem respond_rsp (st : Status) (v : Word) (s : State) : (respond st v s).rsp = s.rsp ++ [responseWord st v] := rfl
@[simp] theorem respond_rxs (st : Status) (v : Word) (s : State) : (respond st v s).rxs = s.rxs := rfl
@[simp] theorem respond_txp (st : Status) (v : Word) (s : State) : (respond st v s).txp = s.txp := rfl
@[simp] theorem respond_txs (st : Status) (v : Word) (s : State) : (respond st v s).txs = s.txs := rfl
@[simp] theorem respond_sinkReady (st : Status) (v : Word) (s : State) : (respond st v s).sinkReady = s.sinkReady := rfl
@[simp] theorem respond_agenda (st : Status) (v : Word) (s : State) : (respond st v s).agenda = s.agenda := rfl
@[simp] theorem respond_choices (st : Status) (v : Word) (s : State) : (respond st v s).choices = s.choices := rfl
@[simp] theorem respond_bufEpoch (st : Status) (v : Word) (s : State) : (respond st v s).bufEpoch = s.bufEpoch := rfl

/-! ### `refuseCommand` writes `rsp` only (R154) -/

@[simp] theorem refuseCommand_crcAcc (st : Status) (s : State) : (refuseCommand st s).crcAcc = s.crcAcc := rfl
@[simp] theorem refuseCommand_tx (st : Status) (s : State) : (refuseCommand st s).tx = s.tx := rfl
@[simp] theorem refuseCommand_rx (st : Status) (s : State) : (refuseCommand st s).rx = s.rx := rfl
@[simp] theorem refuseCommand_cmd (st : Status) (s : State) : (refuseCommand st s).cmd = s.cmd := rfl
@[simp] theorem refuseCommand_rsp (st : Status) (s : State) : (refuseCommand st s).rsp = s.rsp ++ [responseWord st 0] := rfl
@[simp] theorem refuseCommand_rxs (st : Status) (s : State) : (refuseCommand st s).rxs = s.rxs := rfl
@[simp] theorem refuseCommand_txp (st : Status) (s : State) : (refuseCommand st s).txp = s.txp := rfl
@[simp] theorem refuseCommand_txs (st : Status) (s : State) : (refuseCommand st s).txs = s.txs := rfl
@[simp] theorem refuseCommand_sinkReady (st : Status) (s : State) : (refuseCommand st s).sinkReady = s.sinkReady := rfl
@[simp] theorem refuseCommand_agenda (st : Status) (s : State) : (refuseCommand st s).agenda = s.agenda := rfl
@[simp] theorem refuseCommand_choices (st : Status) (s : State) : (refuseCommand st s).choices = s.choices := rfl
@[simp] theorem refuseCommand_bufEpoch (st : Status) (s : State) : (refuseCommand st s).bufEpoch = s.bufEpoch := rfl

/-! ### `emit` writes `txs` only -/

@[simp] theorem emit_crcAcc (b : Byte) (last : Bool) (s : State) : (emit b last s).crcAcc = s.crcAcc := rfl
@[simp] theorem emit_tx (b : Byte) (last : Bool) (s : State) : (emit b last s).tx = s.tx := rfl
@[simp] theorem emit_rx (b : Byte) (last : Bool) (s : State) : (emit b last s).rx = s.rx := rfl
@[simp] theorem emit_cmd (b : Byte) (last : Bool) (s : State) : (emit b last s).cmd = s.cmd := rfl
@[simp] theorem emit_rsp (b : Byte) (last : Bool) (s : State) : (emit b last s).rsp = s.rsp := rfl
@[simp] theorem emit_rxs (b : Byte) (last : Bool) (s : State) : (emit b last s).rxs = s.rxs := rfl
@[simp] theorem emit_txp (b : Byte) (last : Bool) (s : State) : (emit b last s).txp = s.txp := rfl
@[simp] theorem emit_txs (b : Byte) (last : Bool) (s : State) : (emit b last s).txs = s.txs ++ [(b, last)] := rfl
@[simp] theorem emit_sinkReady (b : Byte) (last : Bool) (s : State) : (emit b last s).sinkReady = s.sinkReady := rfl
@[simp] theorem emit_agenda (b : Byte) (last : Bool) (s : State) : (emit b last s).agenda = s.agenda := rfl
@[simp] theorem emit_choices (b : Byte) (last : Bool) (s : State) : (emit b last s).choices = s.choices := rfl
@[simp] theorem emit_bufEpoch (b : Byte) (last : Bool) (s : State) : (emit b last s).bufEpoch = s.bufEpoch := rfl

/-! ### `raiseInvalid` writes RX_RESULT, ERR_CAUSE and RX_PHASE only (R160) -/

@[simp] theorem raiseInvalid_crcAcc (c : ErrCause) (s : State) : (raiseInvalid c s).crcAcc = s.crcAcc := rfl
@[simp] theorem raiseInvalid_tx (c : ErrCause) (s : State) : (raiseInvalid c s).tx = s.tx := rfl
@[simp] theorem raiseInvalid_cmd (c : ErrCause) (s : State) : (raiseInvalid c s).cmd = s.cmd := rfl
@[simp] theorem raiseInvalid_rsp (c : ErrCause) (s : State) : (raiseInvalid c s).rsp = s.rsp := rfl
@[simp] theorem raiseInvalid_rxs (c : ErrCause) (s : State) : (raiseInvalid c s).rxs = s.rxs := rfl
@[simp] theorem raiseInvalid_txp (c : ErrCause) (s : State) : (raiseInvalid c s).txp = s.txp := rfl
@[simp] theorem raiseInvalid_txs (c : ErrCause) (s : State) : (raiseInvalid c s).txs = s.txs := rfl
@[simp] theorem raiseInvalid_sinkReady (c : ErrCause) (s : State) : (raiseInvalid c s).sinkReady = s.sinkReady := rfl
@[simp] theorem raiseInvalid_agenda (c : ErrCause) (s : State) : (raiseInvalid c s).agenda = s.agenda := rfl
@[simp] theorem raiseInvalid_choices (c : ErrCause) (s : State) : (raiseInvalid c s).choices = s.choices := rfl
@[simp] theorem raiseInvalid_bufEpoch (c : ErrCause) (s : State) : (raiseInvalid c s).bufEpoch = s.bufEpoch := rfl
@[simp] theorem raiseInvalid_rx_phase (c : ErrCause) (s : State) : (raiseInvalid c s).rx.phase = .idle := rfl
@[simp] theorem raiseInvalid_rx_h0 (c : ErrCause) (s : State) : (raiseInvalid c s).rx.h0 = s.rx.h0 := rfl
@[simp] theorem raiseInvalid_rx_h1 (c : ErrCause) (s : State) : (raiseInvalid c s).rx.h1 = s.rx.h1 := rfl
@[simp] theorem raiseInvalid_rx_code (c : ErrCause) (s : State) : (raiseInvalid c s).rx.code = s.rx.code := rfl
@[simp] theorem raiseInvalid_rx_len (c : ErrCause) (s : State) : (raiseInvalid c s).rx.len = s.rx.len := rfl
@[simp] theorem raiseInvalid_rx_cnt (c : ErrCause) (s : State) : (raiseInvalid c s).rx.cnt = s.rx.cnt := rfl
@[simp] theorem raiseInvalid_rx_crc (c : ErrCause) (s : State) : (raiseInvalid c s).rx.crc = s.rx.crc := rfl
@[simp] theorem raiseInvalid_rx_cursor (c : ErrCause) (s : State) : (raiseInvalid c s).rx.cursor = s.rx.cursor := rfl
@[simp] theorem raiseInvalid_rx_result (c : ErrCause) (s : State) : (raiseInvalid c s).rx.result = .invalidPacket := rfl
@[simp] theorem raiseInvalid_rx_cause (c : ErrCause) (s : State) : (raiseInvalid c s).rx.cause = c := rfl
@[simp] theorem raiseInvalid_rx_errComputed (c : ErrCause) (s : State) : (raiseInvalid c s).rx.errComputed = s.rx.errComputed := rfl
@[simp] theorem raiseInvalid_rx_errReceived (c : ErrCause) (s : State) : (raiseInvalid c s).rx.errReceived = s.rx.errReceived := rfl
@[simp] theorem raiseInvalid_rx_errIo (c : ErrCause) (s : State) : (raiseInvalid c s).rx.errIo = s.rx.errIo := rfl
@[simp] theorem raiseInvalid_rx_buf (c : ErrCause) (s : State) : (raiseInvalid c s).rx.buf = s.rx.buf := rfl

/-! ### `clearErrors` writes the four error registers only (R17 to R19) -/

@[simp] theorem clearErrors_crcAcc (s : State) : (clearErrors s).crcAcc = s.crcAcc := rfl
@[simp] theorem clearErrors_tx (s : State) : (clearErrors s).tx = s.tx := rfl
@[simp] theorem clearErrors_cmd (s : State) : (clearErrors s).cmd = s.cmd := rfl
@[simp] theorem clearErrors_rsp (s : State) : (clearErrors s).rsp = s.rsp := rfl
@[simp] theorem clearErrors_rxs (s : State) : (clearErrors s).rxs = s.rxs := rfl
@[simp] theorem clearErrors_txp (s : State) : (clearErrors s).txp = s.txp := rfl
@[simp] theorem clearErrors_txs (s : State) : (clearErrors s).txs = s.txs := rfl
@[simp] theorem clearErrors_sinkReady (s : State) : (clearErrors s).sinkReady = s.sinkReady := rfl
@[simp] theorem clearErrors_agenda (s : State) : (clearErrors s).agenda = s.agenda := rfl
@[simp] theorem clearErrors_choices (s : State) : (clearErrors s).choices = s.choices := rfl
@[simp] theorem clearErrors_bufEpoch (s : State) : (clearErrors s).bufEpoch = s.bufEpoch := rfl
@[simp] theorem clearErrors_rx_phase (s : State) : (clearErrors s).rx.phase = s.rx.phase := rfl
@[simp] theorem clearErrors_rx_h0 (s : State) : (clearErrors s).rx.h0 = s.rx.h0 := rfl
@[simp] theorem clearErrors_rx_h1 (s : State) : (clearErrors s).rx.h1 = s.rx.h1 := rfl
@[simp] theorem clearErrors_rx_code (s : State) : (clearErrors s).rx.code = s.rx.code := rfl
@[simp] theorem clearErrors_rx_len (s : State) : (clearErrors s).rx.len = s.rx.len := rfl
@[simp] theorem clearErrors_rx_cnt (s : State) : (clearErrors s).rx.cnt = s.rx.cnt := rfl
@[simp] theorem clearErrors_rx_crc (s : State) : (clearErrors s).rx.crc = s.rx.crc := rfl
@[simp] theorem clearErrors_rx_cursor (s : State) : (clearErrors s).rx.cursor = s.rx.cursor := rfl
@[simp] theorem clearErrors_rx_result (s : State) : (clearErrors s).rx.result = s.rx.result := rfl
@[simp] theorem clearErrors_rx_cause (s : State) : (clearErrors s).rx.cause = .noCause := rfl
@[simp] theorem clearErrors_rx_errComputed (s : State) : (clearErrors s).rx.errComputed = 0 := rfl
@[simp] theorem clearErrors_rx_errReceived (s : State) : (clearErrors s).rx.errReceived = 0 := rfl
@[simp] theorem clearErrors_rx_errIo (s : State) : (clearErrors s).rx.errIo = 0 := rfl
@[simp] theorem clearErrors_rx_buf (s : State) : (clearErrors s).rx.buf = s.rx.buf := rfl

/-! ### `releaseOutcome` writes RX_RESULT and the error registers only (R125) -/

@[simp] theorem releaseOutcome_crcAcc (s : State) : (releaseOutcome s).crcAcc = s.crcAcc := rfl
@[simp] theorem releaseOutcome_tx (s : State) : (releaseOutcome s).tx = s.tx := rfl
@[simp] theorem releaseOutcome_cmd (s : State) : (releaseOutcome s).cmd = s.cmd := rfl
@[simp] theorem releaseOutcome_rsp (s : State) : (releaseOutcome s).rsp = s.rsp := rfl
@[simp] theorem releaseOutcome_rxs (s : State) : (releaseOutcome s).rxs = s.rxs := rfl
@[simp] theorem releaseOutcome_txp (s : State) : (releaseOutcome s).txp = s.txp := rfl
@[simp] theorem releaseOutcome_txs (s : State) : (releaseOutcome s).txs = s.txs := rfl
@[simp] theorem releaseOutcome_sinkReady (s : State) : (releaseOutcome s).sinkReady = s.sinkReady := rfl
@[simp] theorem releaseOutcome_agenda (s : State) : (releaseOutcome s).agenda = s.agenda := rfl
@[simp] theorem releaseOutcome_choices (s : State) : (releaseOutcome s).choices = s.choices := rfl
@[simp] theorem releaseOutcome_bufEpoch (s : State) : (releaseOutcome s).bufEpoch = s.bufEpoch := rfl
@[simp] theorem releaseOutcome_rx_phase (s : State) : (releaseOutcome s).rx.phase = s.rx.phase := rfl
@[simp] theorem releaseOutcome_rx_h0 (s : State) : (releaseOutcome s).rx.h0 = s.rx.h0 := rfl
@[simp] theorem releaseOutcome_rx_h1 (s : State) : (releaseOutcome s).rx.h1 = s.rx.h1 := rfl
@[simp] theorem releaseOutcome_rx_code (s : State) : (releaseOutcome s).rx.code = s.rx.code := rfl
@[simp] theorem releaseOutcome_rx_len (s : State) : (releaseOutcome s).rx.len = s.rx.len := rfl
@[simp] theorem releaseOutcome_rx_cnt (s : State) : (releaseOutcome s).rx.cnt = s.rx.cnt := rfl
@[simp] theorem releaseOutcome_rx_crc (s : State) : (releaseOutcome s).rx.crc = s.rx.crc := rfl
@[simp] theorem releaseOutcome_rx_cursor (s : State) : (releaseOutcome s).rx.cursor = s.rx.cursor := rfl
@[simp] theorem releaseOutcome_rx_result (s : State) : (releaseOutcome s).rx.result = .none := rfl
@[simp] theorem releaseOutcome_rx_cause (s : State) : (releaseOutcome s).rx.cause = .noCause := rfl
@[simp] theorem releaseOutcome_rx_errComputed (s : State) : (releaseOutcome s).rx.errComputed = 0 := rfl
@[simp] theorem releaseOutcome_rx_errReceived (s : State) : (releaseOutcome s).rx.errReceived = 0 := rfl
@[simp] theorem releaseOutcome_rx_errIo (s : State) : (releaseOutcome s).rx.errIo = 0 := rfl
@[simp] theorem releaseOutcome_rx_buf (s : State) : (releaseOutcome s).rx.buf = s.rx.buf := rfl

/-! ### `deliverFrame` writes RX_RESULT, RX_CURSOR and RX_PHASE only (R120) -/

@[simp] theorem deliverFrame_crcAcc (s : State) : (deliverFrame s).crcAcc = s.crcAcc := rfl
@[simp] theorem deliverFrame_tx (s : State) : (deliverFrame s).tx = s.tx := rfl
@[simp] theorem deliverFrame_cmd (s : State) : (deliverFrame s).cmd = s.cmd := rfl
@[simp] theorem deliverFrame_rsp (s : State) : (deliverFrame s).rsp = s.rsp := rfl
@[simp] theorem deliverFrame_rxs (s : State) : (deliverFrame s).rxs = s.rxs := rfl
@[simp] theorem deliverFrame_txp (s : State) : (deliverFrame s).txp = s.txp := rfl
@[simp] theorem deliverFrame_txs (s : State) : (deliverFrame s).txs = s.txs := rfl
@[simp] theorem deliverFrame_sinkReady (s : State) : (deliverFrame s).sinkReady = s.sinkReady := rfl
@[simp] theorem deliverFrame_agenda (s : State) : (deliverFrame s).agenda = s.agenda := rfl
@[simp] theorem deliverFrame_choices (s : State) : (deliverFrame s).choices = s.choices := rfl
@[simp] theorem deliverFrame_bufEpoch (s : State) : (deliverFrame s).bufEpoch = s.bufEpoch := rfl
@[simp] theorem deliverFrame_rx_phase (s : State) : (deliverFrame s).rx.phase = .idle := rfl
@[simp] theorem deliverFrame_rx_h0 (s : State) : (deliverFrame s).rx.h0 = s.rx.h0 := rfl
@[simp] theorem deliverFrame_rx_h1 (s : State) : (deliverFrame s).rx.h1 = s.rx.h1 := rfl
@[simp] theorem deliverFrame_rx_code (s : State) : (deliverFrame s).rx.code = s.rx.code := rfl
@[simp] theorem deliverFrame_rx_len (s : State) : (deliverFrame s).rx.len = s.rx.len := rfl
@[simp] theorem deliverFrame_rx_cnt (s : State) : (deliverFrame s).rx.cnt = s.rx.cnt := rfl
@[simp] theorem deliverFrame_rx_crc (s : State) : (deliverFrame s).rx.crc = s.rx.crc := rfl
@[simp] theorem deliverFrame_rx_cursor (s : State) : (deliverFrame s).rx.cursor = 0 := rfl
@[simp] theorem deliverFrame_rx_result (s : State) : (deliverFrame s).rx.result = .frame := rfl
@[simp] theorem deliverFrame_rx_cause (s : State) : (deliverFrame s).rx.cause = s.rx.cause := rfl
@[simp] theorem deliverFrame_rx_errComputed (s : State) : (deliverFrame s).rx.errComputed = s.rx.errComputed := rfl
@[simp] theorem deliverFrame_rx_errReceived (s : State) : (deliverFrame s).rx.errReceived = s.rx.errReceived := rfl
@[simp] theorem deliverFrame_rx_errIo (s : State) : (deliverFrame s).rx.errIo = s.rx.errIo := rfl
@[simp] theorem deliverFrame_rx_buf (s : State) : (deliverFrame s).rx.buf = s.rx.buf := rfl

/-! ### `raise` keeps everything but the result registers and RX_PHASE (R160) -/

@[simp] theorem raise_crcAcc (x : ParseFailure) (s : State) : (raise x s).crcAcc = s.crcAcc := by cases x <;> rfl
@[simp] theorem raise_tx (x : ParseFailure) (s : State) : (raise x s).tx = s.tx := by cases x <;> rfl
@[simp] theorem raise_cmd (x : ParseFailure) (s : State) : (raise x s).cmd = s.cmd := by cases x <;> rfl
@[simp] theorem raise_rsp (x : ParseFailure) (s : State) : (raise x s).rsp = s.rsp := by cases x <;> rfl
@[simp] theorem raise_rxs (x : ParseFailure) (s : State) : (raise x s).rxs = s.rxs := by cases x <;> rfl
@[simp] theorem raise_txp (x : ParseFailure) (s : State) : (raise x s).txp = s.txp := by cases x <;> rfl
@[simp] theorem raise_txs (x : ParseFailure) (s : State) : (raise x s).txs = s.txs := by cases x <;> rfl
@[simp] theorem raise_sinkReady (x : ParseFailure) (s : State) : (raise x s).sinkReady = s.sinkReady := by cases x <;> rfl
@[simp] theorem raise_agenda (x : ParseFailure) (s : State) : (raise x s).agenda = s.agenda := by cases x <;> rfl
@[simp] theorem raise_choices (x : ParseFailure) (s : State) : (raise x s).choices = s.choices := by cases x <;> rfl
@[simp] theorem raise_bufEpoch (x : ParseFailure) (s : State) : (raise x s).bufEpoch = s.bufEpoch := by cases x <;> rfl
@[simp] theorem raise_rx_h0 (x : ParseFailure) (s : State) : (raise x s).rx.h0 = s.rx.h0 := by cases x <;> rfl
@[simp] theorem raise_rx_h1 (x : ParseFailure) (s : State) : (raise x s).rx.h1 = s.rx.h1 := by cases x <;> rfl
@[simp] theorem raise_rx_code (x : ParseFailure) (s : State) : (raise x s).rx.code = s.rx.code := by cases x <;> rfl
@[simp] theorem raise_rx_len (x : ParseFailure) (s : State) : (raise x s).rx.len = s.rx.len := by cases x <;> rfl
@[simp] theorem raise_rx_cnt (x : ParseFailure) (s : State) : (raise x s).rx.cnt = s.rx.cnt := by cases x <;> rfl
@[simp] theorem raise_rx_crc (x : ParseFailure) (s : State) : (raise x s).rx.crc = s.rx.crc := by cases x <;> rfl
@[simp] theorem raise_rx_cursor (x : ParseFailure) (s : State) : (raise x s).rx.cursor = s.rx.cursor := by cases x <;> rfl
@[simp] theorem raise_rx_buf (x : ParseFailure) (s : State) : (raise x s).rx.buf = s.rx.buf := by cases x <;> rfl
@[simp] theorem raise_rx_phase (x : ParseFailure) (s : State) : (raise x s).rx.phase = .idle := by cases x <;> rfl

/-! ### `assertReset` writes the registers and keeps the streams (R175, R176) -/

@[simp] theorem assertReset_crcAcc (s : State) : (assertReset s).crcAcc = 0 := rfl
@[simp] theorem assertReset_tx (s : State) : (assertReset s).tx = TxRegs.reset := rfl
@[simp] theorem assertReset_rx (s : State) : (assertReset s).rx = RxRegs.reset := rfl
@[simp] theorem assertReset_cmd (s : State) : (assertReset s).cmd = s.cmd := rfl
@[simp] theorem assertReset_rsp (s : State) : (assertReset s).rsp = s.rsp := rfl
@[simp] theorem assertReset_rxs (s : State) : (assertReset s).rxs = s.rxs := rfl
@[simp] theorem assertReset_txp (s : State) : (assertReset s).txp = s.txp := rfl
@[simp] theorem assertReset_txs (s : State) : (assertReset s).txs = s.txs := rfl
@[simp] theorem assertReset_sinkReady (s : State) : (assertReset s).sinkReady = s.sinkReady := rfl
@[simp] theorem assertReset_agenda (s : State) : (assertReset s).agenda = s.agenda := rfl
@[simp] theorem assertReset_choices (s : State) : (assertReset s).choices = s.choices := rfl
@[simp] theorem assertReset_bufEpoch (s : State) : (assertReset s).bufEpoch = s.bufEpoch + 1 := rfl

end Sys2Proof.Machine
end

