-- ==== Sys2Proof/Laws/Ops.lean ====
section
/-! SUPPORT. For each shared operation, what it can do, said once: memory, the reads at the cursor, the sequencers'
steps, a turn. -/

namespace Sys2Proof.Machine

/-! ### RX_BUF -/

theorem Memory.read_write_same (m : Memory) (i : Nat) (b : Byte) : Memory.read (Memory.write m i b) i = some b := by
  induction m with
  | nil => simp [Memory.write, Memory.read]
  | cons c m ih =>
    simp only [Memory.write]
    split
    · next h => simp [Memory.read, Nat.ne_of_lt h, ih]
    · split <;> simp [Memory.read]

theorem Memory.read_write_other (m : Memory) (i j : Nat) (b : Byte) (h : j ≠ i) :
    Memory.read (Memory.write m i b) j = Memory.read m j := by
  induction m with
  | nil => simp [Memory.write, Memory.read, Ne.symm h]
  | cons c m ih =>
    simp only [Memory.write]
    split
    · simp only [Memory.read, ih]
    · split
      · next h1 => simp [Memory.read, Ne.symm h, h1]
      · simp [Memory.read, Ne.symm h]

/-- A written buffer's entries are old ones or the new one. -/
theorem Memory.mem_write {m : Memory} {i : Nat} {b : Byte} {c : Host.Cell} (h : c ∈ Memory.write m i b) :
    c = (i, b) ∨ c ∈ m := by
  induction m with
  | nil => simpa [Memory.write] using h
  | cons d m ih =>
    simp only [Memory.write] at h
    split at h
    · rcases List.mem_cons.mp h with h | h
      · exact .inr (by simp [h])
      · rcases ih h with h | h
        · exact .inl h
        · exact .inr (by simp [h])
    · split at h
      · rcases List.mem_cons.mp h with h | h
        · exact .inl h
        · exact .inr (by simp [h])
      · rcases List.mem_cons.mp h with h | h
        · exact .inl h
        · exact .inr h

/-- `Memory.write` keeps the canonical form. -/
theorem Memory.write_wf {m : Memory} {i : Nat} {b : Byte} (hw : Memory.wf m) (hi : i < 65535) :
    Memory.wf (Memory.write m i b) := by
  refine ⟨?_, fun c hc => (Memory.mem_write hc).elim (fun h => h ▸ hi) (hw.2 c)⟩
  have hp := hw.1
  clear hw
  induction m with
  | nil => simp [Memory.write]
  | cons d m ih =>
    obtain ⟨hd, hm⟩ := List.pairwise_cons.mp hp
    simp only [Memory.write]
    split
    · next h =>
      refine List.pairwise_cons.mpr ⟨fun c hc => ?_, ih hm⟩
      rcases Memory.mem_write hc with rfl | hc
      · exact h
      · exact hd c hc
    · split
      · next h1 =>
        refine List.pairwise_cons.mpr ⟨fun c hc => ?_, hm⟩
        have := hd c hc
        simp only
        omega
      · next h1 h2 =>
        refine List.pairwise_cons.mpr ⟨fun c hc => ?_, hp⟩
        rcases List.mem_cons.mp hc with rfl | hc
        · simp only
          omega
        · have := hd c hc
          simp only
          omega

theorem Memory.reset_wf : Memory.wf State.reset.rx.buf := by decide

/-- A listed byte reads as what is listed. -/
theorem State.bufByte_of_read {s : State} {i : Nat} {b : Byte} (h : Memory.read s.rx.buf i = some b) :
    s.bufByte i = b := by simp [State.bufByte, h]

/-- What a byte of RX_BUF reads as depends on the buffer and the reset epoch only. -/
theorem State.bufByte_congr {s t : State} {i : Nat} (h : Memory.read s.rx.buf i = Memory.read t.rx.buf i)
    (he : s.bufEpoch = t.bufEpoch) : s.bufByte i = t.bufByte i := by simp [State.bufByte, h, he]

@[simp] theorem State.bufBytes_length (s : State) (a n : Nat) : (s.bufBytes a n).length = n := by
  simp [State.bufBytes]

/-- `storePayloadByte` writes at RX_CNT inside the buffer, and stops only at the index that does not exist. -/
theorem storePayloadByte_cases (b : Byte) (s : State) :
    (s.rx.cnt.toNat < 65535 ∧ storePayloadByte b s = .ok (Memory.write s.rx.buf s.rx.cnt.toNat b)) ∨
      (s.rx.cnt.toNat = 65535 ∧ storePayloadByte b s = .error (.rxBufIndex 65535)) := by
  have := s.rx.cnt.isLt
  by_cases h : s.rx.cnt.toNat < 65535
  · exact .inl ⟨h, by simp [storePayloadByte, rxBufBytes, h]⟩
  · have h' : s.rx.cnt.toNat = 65535 := by omega
    exact .inr ⟨h', by simp [storePayloadByte, rxBufBytes, h']⟩

/-! ### The read at the cursor -/

/-- Everything `get(n)` can do (R135). -/
theorem readAtCursor_cases (n : Nat) (s : State) :
    (s.rx.result ≠ .frame ∧ readAtCursor n s = refuseCommand .noFrame s) ∨
      (s.rx.result = .frame ∧ s.rx.len.toNat < s.rx.cursor.toNat + n ∧
        readAtCursor n s = refuseCommand .truncatedPayload s) ∨
      (s.rx.result = .frame ∧ s.rx.cursor.toNat + n ≤ s.rx.len.toNat ∧
        readAtCursor n s = respond .ok (memRead s s.rx.cursor.toNat n)
          { s with rx := { s.rx with cursor := s.rx.cursor + BitVec.ofNat 16 n } }) := by
  by_cases h : s.rx.result = .frame
  · by_cases h' : s.rx.len.toNat < s.rx.cursor.toNat + n
    · exact .inr (.inl ⟨h, h', by simp [readAtCursor, tooFewBytes, h, h']⟩)
    · exact .inr (.inr ⟨h, by omega, by simp [readAtCursor, tooFewBytes, h, h']⟩)
  · exact .inl ⟨h, by simp [readAtCursor, h]⟩

/-- A read that answers OK reads inside RX_BUF (R37). -/
theorem readAtCursor_in_range {n : Nat} {s : State} (h : s.rx.cursor.toNat + n ≤ s.rx.len.toNat) :
    s.rx.cursor.toNat + n ≤ 65535 := by
  have := s.rx.len.isLt
  omega

/-! ### The sequencers -/

/-- Everything one step of TXSEQ can do outside the registers it writes: it waits, or it appends one byte to `txs` and
takes at most one from `txp` (R170). -/
theorem txStep_cases (s : State) :
    txStep s = s ∨ ∃ (b : Byte) (last : Bool) (regs : TxRegs) (p : List Byte),
      txStep s = { s with tx := regs, txp := p, txs := s.txs ++ [(b, last)] } ∧
        regs.code = s.tx.code ∧ regs.len = s.tx.len ∧ (p = s.txp ∨ ∃ x, s.txp = x :: p) := by
  unfold txStep
  split
  · unfold txPhaseStep
    split
    · exact .inl rfl
    all_goals try exact .inr ⟨_, _, _, s.txp, rfl, rfl, rfl, .inl rfl⟩
    split
    · exact .inl rfl
    · next b rest h => exact .inr ⟨b, false, _, rest, rfl, rfl, rfl, .inr ⟨b, h⟩⟩
  · exact .inl rfl

/-- A token step changes the parser's registers only (R170). -/
theorem rxToken_cases (early : Bool) (t : Token) (s : State) :
    (∃ regs, rxToken early t s = .next { s with rx := regs }) ∨ rxToken early t s = .fault (.rxBufIndex 65535) := by
  cases t with
  | ioerr e => exact .inl ⟨_, rfl⟩
  | byte b =>
    simp only [rxToken, rxByte]
    split
    case h_1 => exact .inl ⟨s.rx, rfl⟩
    case h_10 =>
      simp only [rxPayload]
      rcases storePayloadByte_cases b s with ⟨-, h⟩ | ⟨-, h⟩ <;> rw [h]
      · exact .inl ⟨_, rfl⟩
      · exact .inr rfl
    case h_2 => unfold rxHdr0; split <;> exact .inl ⟨_, rfl⟩
    case h_3 => unfold rxHdr1; split <;> exact .inl ⟨_, rfl⟩
    case h_4 =>
      unfold rxHdr2
      repeat' split
      all_goals exact .inl ⟨_, rfl⟩
    case h_11 => unfold rxChecksum; split <;> exact .inl ⟨_, rfl⟩
    all_goals exact .inl ⟨_, rfl⟩

/-- Everything one step of RXSEQ can do outside the parser's registers: it has no step, or it takes exactly one token
(R107). -/
theorem rxStepWith_cases (early : Bool) (s : State) :
    ((rxBusy s = false ∨ s.rxs = []) ∧ rxStepWith early s = .next s) ∨
      ∃ t rest, rxBusy s = true ∧ s.rxs = t :: rest ∧
        rxStepWith early s = rxToken early t { s with rxs := rest } := by
  unfold rxStepWith
  split
  · next hb =>
    split
    · next h => exact .inl ⟨.inr h, rfl⟩
    · next t rest h => exact .inr ⟨t, rest, hb, h, rfl⟩
  · next hb => exact .inl ⟨.inl (by simpa using hb), rfl⟩

/-! ### Commands -/

/-- Everything a command can do (R65, R154): it answers one word; a status other than OK changes nothing else. -/
theorem exec_command_answers (i : Instr) (hi : i.isCommand = true) (s : State) :
    (∃ st, st ≠ Status.ok ∧ exec i s = .next (refuseCommand st s)) ∨
      ∃ (v : Word) (acc : Byte) (tx : TxRegs) (rx : RxRegs),
        exec i s = .next (respond .ok v { s with crcAcc := acc, tx := tx, rx := rx }) ∧ rx.buf = s.rx.buf := by
  cases i with
  | frameReq | frameRsp => simp [Instr.isCommand] at hi
  | rxGet8 =>
    rcases readAtCursor_cases 1 s with ⟨-, h⟩ | ⟨-, -, h⟩ | ⟨-, -, h⟩
    · exact .inl ⟨.noFrame, by decide, by simp [exec, execRxGet8, h]⟩
    · exact .inl ⟨.truncatedPayload, by decide, by simp [exec, execRxGet8, h]⟩
    · exact .inr ⟨_, s.crcAcc, s.tx, _, congrArg Host.Outcome.next h, rfl⟩
  | rxGet16 =>
    rcases readAtCursor_cases 2 s with ⟨-, h⟩ | ⟨-, -, h⟩ | ⟨-, -, h⟩
    · exact .inl ⟨.noFrame, by decide, by simp [exec, execRxGet16, h]⟩
    · exact .inl ⟨.truncatedPayload, by decide, by simp [exec, execRxGet16, h]⟩
    · exact .inr ⟨_, s.crcAcc, s.tx, _, congrArg Host.Outcome.next h, rfl⟩
  | rxGet32 =>
    rcases readAtCursor_cases 4 s with ⟨-, h⟩ | ⟨-, -, h⟩ | ⟨-, -, h⟩
    · exact .inl ⟨.noFrame, by decide, by simp [exec, execRxGet32, h]⟩
    · exact .inl ⟨.truncatedPayload, by decide, by simp [exec, execRxGet32, h]⟩
    · exact .inr ⟨_, s.crcAcc, s.tx, _, congrArg Host.Outcome.next h, rfl⟩
  | txBuild code len =>
    simp only [exec, execTxBuild]
    split
    · exact .inl ⟨.busy, by decide, rfl⟩
    · exact .inr ⟨_, s.crcAcc, _, s.rx, rfl, rfl⟩
  | rxParse =>
    simp only [exec, execRxParse]
    split
    · exact .inl ⟨.busy, by decide, rfl⟩
    · exact .inr ⟨_, s.crcAcc, s.tx, _, rfl, rfl⟩
  | rxHead =>
    simp only [exec, execRxHead]
    split
    · exact .inl ⟨.noFrame, by decide, rfl⟩
    · exact .inr ⟨_, s.crcAcc, s.tx, s.rx, rfl, rfl⟩
  | rxCursor =>
    simp only [exec, execRxCursor]
    split
    · exact .inl ⟨.noFrame, by decide, rfl⟩
    · exact .inr ⟨_, s.crcAcc, s.tx, s.rx, rfl, rfl⟩
  | crcClear => exact .inr ⟨_, _, s.tx, s.rx, rfl, rfl⟩
  | crcUpdate b => exact .inr ⟨_, _, s.tx, s.rx, rfl, rfl⟩
  | crcRead => exact .inr ⟨_, s.crcAcc, s.tx, s.rx, rfl, rfl⟩
  | txStatus => exact .inr ⟨_, s.crcAcc, s.tx, s.rx, rfl, rfl⟩
  | rxStatus => exact .inr ⟨_, s.crcAcc, s.tx, s.rx, rfl, rfl⟩
  | rxRelease => exact .inr ⟨_, s.crcAcc, s.tx, _, rfl, rfl⟩

/-! ### Turns -/

/-- The next turn is the agenda's head, or a free choice among the inside agents. -/
theorem nextTurn_cases (s : State) :
    (∃ t rest, s.agenda = t :: rest ∧ nextTurn s = (t, { s with agenda := rest })) ∨
      (s.agenda = [] ∧
        nextTurn s = (.agent (Config.arbiter s.choices), { s with choices := s.choices + 1 })) := by
  unfold nextTurn
  split
  · next t rest h => exact .inl ⟨t, rest, h, rfl⟩
  · next h => exact .inr ⟨h, rfl⟩

end Sys2Proof.Machine
end

