-- ==== Sys2Proof/Laws/PerInstr.lean ====
section
/-! SUPPORT. For every instruction: its encoding selects its own row of the opcode table (R55, R63). -/

namespace Sys2Proof.Laws

/-- The row of the table that carries the instruction's mnemonic is selected by the instruction's encoding. -/
def MatchesRow.Statement (i : Instr) : Prop :=
  ∃ r ∈ cmdRows ++ frameRows, r.mnemonic = i.mnemonic ∧ r.selects (encode i).tableBits = true

/-- The op digit of a command word is what the mask of TX.BUILD keeps. -/
theorem cmdWordOf_and_op (op : BitVec 4) (arg : Word) :
    cmdWordOf op arg &&& 0xF00000000#36 = cmdWordOf op 0 := by
  apply BitVec.eq_of_getLsbD_eq
  intro k hk
  simp only [cmdWordOf, BitVec.getLsbD_and, BitVec.getLsbD_append]
  interval_cases k <;> simp

/-- The op digit and the bits above the operand byte are what the mask of CRC.UPDATE keeps. -/
theorem cmdWordOf_and_update (b : Byte) :
    cmdWordOf 0x2 ((0 : BitVec 24) ++ b) &&& 0xFFFFFFF00#36 = cmdWordOf 0x2 0 := by
  apply BitVec.eq_of_getLsbD_eq
  intro k hk
  simp only [cmdWordOf, BitVec.getLsbD_and, BitVec.getLsbD_append]
  interval_cases k <;> simp

theorem MatchesRow.crcClear : MatchesRow.Statement .crcClear := by
  exact ⟨⟨"CRC.CLEAR", 0x100000000, 0xFFFFFFFFF⟩, by simp [cmdRows], rfl, by decide⟩

theorem MatchesRow.crcUpdate (b : Byte) : MatchesRow.Statement (.crcUpdate b) := by
  refine ⟨⟨"CRC.UPDATE", 0x200000000, 0xFFFFFFF00⟩, by simp [cmdRows], rfl, ?_⟩
  have h := congrArg BitVec.toNat (cmdWordOf_and_update b)
  simp only [BitVec.toNat_and] at h
  simp only [TableRow.selects, encode, Encoded.tableBits, beq_iff_eq]
  exact h

theorem MatchesRow.crcRead : MatchesRow.Statement .crcRead :=
  ⟨⟨"CRC.READ", 0x300000000, 0xFFFFFFFFF⟩, by simp [cmdRows], rfl, by decide⟩

theorem MatchesRow.txBuild (code len : Half) : MatchesRow.Statement (.txBuild code len) := by
  refine ⟨⟨"TX.BUILD", 0x400000000, 0xF00000000⟩, by simp [cmdRows], rfl, ?_⟩
  have h := congrArg BitVec.toNat (cmdWordOf_and_op 0x4 (len ++ code))
  simp only [BitVec.toNat_and] at h
  simp only [TableRow.selects, encode, Encoded.tableBits, beq_iff_eq]
  exact h

theorem MatchesRow.txStatus : MatchesRow.Statement .txStatus :=
  ⟨⟨"TX.STATUS", 0x500000000, 0xFFFFFFFFF⟩, by simp [cmdRows], rfl, by decide⟩

theorem MatchesRow.rxParse : MatchesRow.Statement .rxParse :=
  ⟨⟨"RX.PARSE", 0x600000000, 0xFFFFFFFFF⟩, by simp [cmdRows], rfl, by decide⟩

theorem MatchesRow.rxStatus : MatchesRow.Statement .rxStatus :=
  ⟨⟨"RX.STATUS", 0x700000000, 0xFFFFFFFFF⟩, by simp [cmdRows], rfl, by decide⟩

theorem MatchesRow.rxHead : MatchesRow.Statement .rxHead :=
  ⟨⟨"RX.HEAD", 0x800000000, 0xFFFFFFFFF⟩, by simp [cmdRows], rfl, by decide⟩

theorem MatchesRow.rxGet8 : MatchesRow.Statement .rxGet8 :=
  ⟨⟨"RX.GET8", 0x900000000, 0xFFFFFFFFF⟩, by simp [cmdRows], rfl, by decide⟩

theorem MatchesRow.rxGet16 : MatchesRow.Statement .rxGet16 :=
  ⟨⟨"RX.GET16", 0xA00000000, 0xFFFFFFFFF⟩, by simp [cmdRows], rfl, by decide⟩

theorem MatchesRow.rxGet32 : MatchesRow.Statement .rxGet32 :=
  ⟨⟨"RX.GET32", 0xB00000000, 0xFFFFFFFFF⟩, by simp [cmdRows], rfl, by decide⟩

theorem MatchesRow.rxCursor : MatchesRow.Statement .rxCursor :=
  ⟨⟨"RX.CURSOR", 0xC00000000, 0xFFFFFFFFF⟩, by simp [cmdRows], rfl, by decide⟩

theorem MatchesRow.rxRelease : MatchesRow.Statement .rxRelease :=
  ⟨⟨"RX.RELEASE", 0xD00000000, 0xFFFFFFFFF⟩, by simp [cmdRows], rfl, by decide⟩

/-- The table bits of a frame are its first three bytes, whatever follows. -/
theorem tableBits_frame (dir flag : Byte) (code : Half) (payload : List Byte) (checksum : Byte) :
    (Encoded.wire (Machine.frameBytes dir flag code payload checksum)).tableBits =
      Machine.assembleLE [dir, Machine.ver, Machine.sof] := by
  simp [Encoded.tableBits, Machine.frameBytes]

theorem MatchesRow.frameReq (flag : Byte) (code : Half) (payload : List Byte) (checksum : Byte) :
    MatchesRow.Statement (.frameReq flag code payload checksum) :=
  ⟨⟨"FRAME.REQ", 0x24583C, 0xFFFFFF⟩, by simp [cmdRows, frameRows], rfl, by
    simp only [encode, tableBits_frame]
    decide⟩

theorem MatchesRow.frameRsp (flag : Byte) (code : Half) (payload : List Byte) (checksum : Byte) :
    MatchesRow.Statement (.frameRsp flag code payload checksum) :=
  ⟨⟨"FRAME.RSP", 0x24583E, 0xFFFFFF⟩, by simp [cmdRows, frameRows], rfl, by
    simp only [encode, tableBits_frame]
    decide⟩

end Sys2Proof.Laws
end

