-- ==== Sys2Proof/Laws/Run.lean ====
section
/-! SUPPORT. Runs of the machine along the agenda, one turn at a time. -/

namespace Sys2Proof.Machine

/-- One step with a turn at the head of the agenda is that turn. -/
theorem step_agenda {s : State} {t : Turn} {later : List Turn} (h : s.agenda = t :: later) :
    step s = takeTurn t { s with agenda := later } := by
  simp [step, nextTurn, h]

@[simp] theorem runSteps_zero (s : State) : runSteps 0 s = .next s := rfl

/-- A run's first step along the agenda. -/
theorem runSteps_succ_agenda {s t : State} {turn : Turn} {later : List Turn} {n : Nat}
    (h : s.agenda = turn :: later) (ht : takeTurn turn { s with agenda := later } = .next t) :
    runSteps (n + 1) s = runSteps n t := by
  simp only [runSteps, step_agenda h, ht]

/-- A run whose first step stops stops so. -/
theorem runSteps_succ_fault {s : State} {turn : Turn} {later : List Turn} {n : Nat} {f : Fault}
    (h : s.agenda = turn :: later) (ht : takeTurn turn { s with agenda := later } = .fault f) :
    runSteps (n + 1) s = .fault f := by
  simp only [runSteps, step_agenda h, ht]

/-- A run is a run and then a run. -/
theorem runSteps_add {m n : Nat} {s t : State} (h : runSteps m s = .next t) :
    runSteps (m + n) s = runSteps n t := by
  induction m generalizing s with
  | zero =>
    injection h with h
    subst h
    rw [Nat.zero_add]
  | succ m ih =>
    rw [Nat.add_right_comm]
    simp only [runSteps] at h ⊢
    cases hs : step s with
    | next u =>
      rw [hs] at h
      exact ih h
    | fault f => rw [hs] at h; cases h
    | refused r => rw [hs] at h; cases h

/-- A run of the machine is the host's run of its core. -/
theorem runSteps_eq_core (n : Nat) (s : State) : Host.Core.run core n s = runSteps n s := by
  induction n generalizing s with
  | zero => rfl
  | succ n ih =>
    have hs : core.step s = step s := rfl
    simp only [Host.Core.run, runSteps, hs]
    cases step s with
    | next t => exact ih t
    | fault f => rfl
    | refused r => rfl

end Sys2Proof.Machine
end

