-- ==== Sys2Proof/Tests/Slice0.lean ====
section
/-! SUPPORT. Tests, expected results from the spec's vectors (95_test_vectors.md) and examples, and for every statement
with hypotheses a concrete input that meets them (`witness_…`). -/

namespace Sys2Proof.Tests

open Sys2Proof.Machine

/-! ### Helpers -/

/-- The next state of an outcome. -/
def nextOf : Result → Option State
  | .next s => some s
  | _ => none

/-- The responses after an outcome. -/
def responses (r : Result) : Option (List PortWord) := (nextOf r).map (·.rsp)

/-- What the parser shows after an outcome: the value of RX.STATUS and the tokens left. -/
def parsed (r : Result) : Option (Word × List Token) := (nextOf r).map fun s => (rxStatusValue s, s.rxs)

/-- Bytes as tokens. -/
def toks (bytes : List Byte) : List Token := bytes.map .byte

/-- Reset, but for the parser's phase. -/
def rxIn (p : RxPhase) : State := { State.reset with rx := { RxRegs.reset with phase := p } }

/-- Reset, but for the builder's phase, with a two-byte build latched and SINK ready. -/
def txIn (p : TxPhase) : State := { State.reset with tx := { TxRegs.reset with phase := p, code := 0x00C9, len := 2 } }

/-- The frame of B6 held (payload 34 12), the cursor at `c`. -/
def holding (c : Half) : State :=
  { State.reset with rx := { RxRegs.reset with
      h0 := 0x24, h1 := 0x58, code := 0x00C9, len := 2, cnt := 2, crc := 0x47, cursor := c, result := .frame,
      buf := [(0, 0x34), (1, 0x12)] } }

/-- Four payload bytes FF held (R148), the cursor at 0. -/
def holdingFour : State :=
  { State.reset with rx := { RxRegs.reset with
      len := 4, cnt := 4, result := .frame, buf := [(0, 0xFF), (1, 0xFF), (2, 0xFF), (3, 0xFF)] } }

/-- A parse of `t` from R_HDR0 with the given HDR_EARLY_ABORT. -/
def parseOf (early : Bool) (t : List Token) : Option (Word × List Token) :=
  parsed (rxTokens early t (rxIn .hdr0))

/-! ### Well-formedness: what each check refuses -/

theorem test_wf_length_boundary : (Instr.frameReq 0 0 (List.replicate 65535 0) 0).lengthFits = true ∧
    (Instr.frameRsp 0 0 (List.replicate 65535 0) 0).lengthFits = true := by
  simp only [Instr.lengthFits, List.length_replicate]; decide

theorem test_wf_length_refused : (Instr.frameReq 0 0 (List.replicate 65536 0) 0).wellFormed = false ∧
    (Instr.frameRsp 0 0 (List.replicate 65536 0) 0).wellFormed = false := by
  simp only [Instr.wellFormed, Instr.lengthFits, List.length_replicate]; decide

theorem test_wf_checksum : (Instr.frameReq 0 0x00C9 [0x34, 0x12] 0x47).wellFormed = true ∧
    (Instr.frameReq 0 0x00C9 [0x34, 0x12] 0xC7).wellFormed = false ∧
    (Instr.frameRsp 0 0x0001 [] 0x45).wellFormed = true ∧
    (Instr.frameRsp 0 0x0001 [] 0x7C).wellFormed = false := by decide +kernel

/-! ### Decoding: words written out from R59 and R63, frames from R50 and R55 -/

theorem test_decode_crcClear : decodeCmd 0x100000000#36 = .ok .crcClear := by decide
theorem test_decode_crcUpdate : decodeCmd 0x200000031#36 = .ok (.crcUpdate 0x31) := by decide
theorem test_decode_crcRead : decodeCmd 0x300000000#36 = .ok .crcRead := by decide
theorem test_decode_txBuild : decodeCmd 0x400072000#36 = .ok (.txBuild 0x2000 0x0007) ∧
    decodeCmd 0x4FFFFFFFF#36 = .ok (.txBuild 0xFFFF 0xFFFF) := by decide
theorem test_decode_txStatus : decodeCmd 0x500000000#36 = .ok .txStatus := by decide
theorem test_decode_rxParse : decodeCmd 0x600000000#36 = .ok .rxParse := by decide
theorem test_decode_rxStatus : decodeCmd 0x700000000#36 = .ok .rxStatus := by decide
theorem test_decode_rxHead : decodeCmd 0x800000000#36 = .ok .rxHead := by decide
theorem test_decode_rxGet8 : decodeCmd 0x900000000#36 = .ok .rxGet8 := by decide
theorem test_decode_rxGet16 : decodeCmd 0xA00000000#36 = .ok .rxGet16 := by decide
theorem test_decode_rxGet32 : decodeCmd 0xB00000000#36 = .ok .rxGet32 := by decide
theorem test_decode_rxCursor : decodeCmd 0xC00000000#36 = .ok .rxCursor := by decide
theorem test_decode_rxRelease : decodeCmd 0xD00000000#36 = .ok .rxRelease := by decide

/-- B5 as bytes: code 0x1234, one payload byte AB. -/
theorem test_decode_frameReq :
    decodeFrame [0x24, 0x58, 0x3C, 0x00, 0x34, 0x12, 0x01, 0x00, 0xAB, 0x38, 0x99] =
      .ok (.frameReq 0x00 0x1234 [0xAB] 0x38, [0x99]) := by decide

/-- B12's first bytes with a short payload: flag A5, code 0x4242, direction `>`. -/
theorem test_decode_frameRsp :
    decodeFrame [0x24, 0x58, 0x3E, 0xA5, 0x42, 0x43, 0x02, 0x00, 0x48, 0x65, 0x77] =
      .ok (.frameRsp 0xA5 0x4342 [0x48, 0x65] 0x77, []) := by decide

/-- The illegal words of 95_test_vectors.md 2.5. -/
theorem test_decode_illegal_words :
    decodeCmd 0x000000000#36 = .error (.reservedOp 0x0) ∧ decodeCmd 0xE00000000#36 = .error (.reservedOp 0xE) ∧
    decodeCmd 0xFFFFFFFFF#36 = .error (.reservedOp 0xF) ∧
    decodeCmd 0x100000001#36 = .error (.reservedBits 0x1 1) ∧
    decodeCmd 0x2000001FF#36 = .error (.reservedBits 0x2 0x1FF) ∧
    decodeCmd 0x900000001#36 = .error (.reservedBits 0x9 1) := by decide

theorem test_decode_bad_frames :
    decodeFrame [0x25, 0x4D, 0x00, 0x09] = .error .badStart ∧
    decodeFrame [0x24, 0x4D, 0x3C, 0x00] = .error .badVersion ∧
    decodeFrame [0x24, 0x58, 0x21, 0x00] = .error .badDirection ∧
    decodeFrame [0x24, 0x58] = .error .shortFrame ∧
    decodeFrame [0x24, 0x58, 0x3C, 0x00, 0xC9, 0x00, 0x03, 0x00, 0x34, 0x12, 0x47] = .error .shortFrame := by decide

/-- The table's rows, numbered as the table numbers them (log 8). -/
theorem test_decodeTableWord :
    decodeTableWord 40 0x400000000 = some (.txBuild 0 0) ∧ decodeTableWord 40 0xD00000000 = some .rxRelease ∧
    decodeTableWord 40 0x1100000000 = none ∧ decodeTableWord 24 0x24583C = some (.frameReq 0 0 [] 0) ∧
    decodeTableWord 24 0x24583E = some (.frameRsp 0 0 [] 0) ∧ decodeTableWord 24 0x3C5824 = none := by decide

/-! ### The checksum function -/

/-- The corners of 95_test_vectors.md 2.1. -/
theorem test_crc8Update_corners :
    crc8Update 0x00 0x01 = 0xD5 ∧ crc8Update 0x01 0x00 = 0xD5 ∧ crc8Update 0x00 0x80 = 0xEF ∧
    crc8Update 0x80 0x80 = 0x00 ∧ crc8Update 0x6A 0x95 = 0xF9 ∧ crc8Update 0x40 0x00 = 0x9D ∧
    crc8Update 0x7F 0x00 = 0x16 := by decide

/-- K1, K6, K7 (the corrected V1), K9, K10, K12, K13. -/
theorem test_crc8_strings :
    crc8 [] = 0x00 ∧ crc8 [0xD5] = 0x0B ∧ crc8 [0x00, 0x01, 0x00, 0x00, 0x00] = 0x45 ∧
    crc8 [0x31, 0x32, 0x33, 0x34, 0x35, 0x36, 0x37, 0x38, 0x39] = 0xBC ∧ crc8 [0xFF, 0xFF, 0xFF, 0xFF] = 0x21 ∧
    crc8 [0xA5, 0x42, 0x42, 0x12, 0x00] = 0x12 ∧ crc8 [0x00, 0x01, 0x00, 0x00, 0x00, 0x45] = 0x00 := by
  decide +kernel

/-- Three rows of the table of R79. -/
theorem test_crc_table_rows :
    (List.range 16).map (fun l => crc8Update 0 (BitVec.ofNat 8 l)) =
      [0x00, 0xD5, 0x7F, 0xAA, 0xFE, 0x2B, 0x81, 0x54, 0x29, 0xFC, 0x56, 0x83, 0xD7, 0x02, 0xA8, 0x7D] ∧
    (List.range 16).map (fun l => crc8Update 0 (BitVec.ofNat 8 (0x80 + l))) =
      [0xEF, 0x3A, 0x90, 0x45, 0x11, 0xC4, 0x6E, 0xBB, 0xC6, 0x13, 0xB9, 0x6C, 0x38, 0xED, 0x47, 0x92] ∧
    (List.range 16).map (fun l => crc8Update 0 (BitVec.ofNat 8 (0xF0 + l))) =
      [0x84, 0x51, 0xFB, 0x2E, 0x7A, 0xAF, 0x05, 0xD0, 0xAD, 0x78, 0xD2, 0x07, 0x53, 0x86, 0x2C, 0xF9] := by
  decide +kernel

/-! ### One instruction each -/

/-- P1: the last update of "123456789", then the read. -/
theorem test_crcUpdate : responses (exec (.crcUpdate 0x39) { State.reset with crcAcc := 0x45 }) = some [0x0000000BC] ∧
    responses (exec .crcRead { State.reset with crcAcc := 0xBC }) = some [0x0000000BC] := by decide +kernel

/-- The example of R81. -/
theorem test_crcClear : (nextOf (exec .crcClear { State.reset with crcAcc := 0xBC })).map (·.crcAcc) = some 0x00 := by
  decide

/-- P5: a second TX.BUILD answers BUSY; TX.STATUS shows the build. -/
theorem test_txBuild_busy : nextOf (exec (.txBuild 0xFFFF 9) (txIn .crc)) =
      some { txIn .crc with rsp := [0x300000000] } ∧
    responses (exec .txStatus (txIn .hdr0)) = some [0x000000001] := by decide

/-- P2: right after the command. -/
theorem test_txBuild_starts : (nextOf (exec (.txBuild 0x2000 7) State.reset)).map (fun s => (s.tx, s.rsp)) =
    some ({ phase := .hdr0, code := 0x2000, len := 7, cnt := 0, crc := 0 }, [0x000000000]) := by decide

/-- The bytes of B6 and of B9. -/
theorem test_buildFrame :
    buildFrame 0x00C9 [0x34, 0x12] = [0x24, 0x58, 0x3C, 0x00, 0xC9, 0x00, 0x02, 0x00, 0x34, 0x12, 0x47] ∧
    buildFrame 0x0001 [0x45] = [0x24, 0x58, 0x3C, 0x00, 0x01, 0x00, 0x01, 0x00, 0x45, 0x83] := by decide +kernel

/-- PUT16 and PUT32 of P2 (R142, R143). -/
theorem test_puts : put16 0x1234 = [0x34, 0x12] ∧ put32 0x12345678 = [0x78, 0x56, 0x34, 0x12] := by decide

/-- The example of R106. -/
theorem test_rxParse : responses (exec .rxParse State.reset) = some [0x000000000] ∧
    responses (exec .rxParse (rxIn .hdr0)) = some [0x300000000] ∧
    responses (exec .rxParse (holding 0)) = some [0x300000000] := by decide

theorem test_rxStatus_busy : responses (exec .rxStatus (rxIn .lenLo)) = some [0x000000020] ∧
    responses (exec .rxStatus (holding 1)) = some [0x000000001] := by decide

/-- The example of R124, and NO_FRAME. -/
theorem test_rxHead : responses (exec .rxHead (holding 0)) = some [0x0000200C9] ∧
    responses (exec .rxHead State.reset) = some [0x200000000] := by decide

theorem test_rxRelease : (nextOf (exec .rxRelease (holding 1))).map (fun s => (s.rx.result, s.rx.len, s.rx.cursor)) =
    some (.none, 2, 1) := by decide

/-- 95_test_vectors.md 2.4 on X2: with one byte left GET16 fails, GET8 succeeds. -/
theorem test_rxGet8 : (nextOf (exec .rxGet8 (holding 1))).map (fun s => (s.rx.cursor, s.rsp)) =
      some (2, [0x000000012]) ∧ responses (exec .rxGet8 (holding 2)) = some [0x100000000] := by decide

theorem test_rxGet16 : (nextOf (exec .rxGet16 (holding 0))).map (fun s => (s.rx.cursor, s.rsp)) =
      some (2, [0x000001234]) ∧ responses (exec .rxGet16 (holding 1)) = some [0x100000000] := by decide

theorem test_rxGet32 : (nextOf (exec .rxGet32 holdingFour)).map (fun s => (s.rx.cursor, s.rsp)) =
      some (4, [0x0FFFFFFFF]) ∧ responses (exec .rxGet32 (holding 0)) = some [0x100000000] := by decide

theorem test_rxCursor : responses (exec .rxCursor (holding 2)) = some [0x000000002] ∧
    responses (exec .rxCursor (rxIn .payload)) = some [0x200000000] := by decide

/-- X2, and X20 with bit 7 of the checksum flipped. -/
theorem test_frameReq :
    parsed (exec (.frameReq 0x00 0x00C9 [0x34, 0x12] 0x47) (rxIn .hdr0)) = some (0x00000001, []) ∧
    parsed (exec (.frameReq 0x00 0x00C9 [0x34, 0x12] 0xC7) (rxIn .hdr0)) = some (0x00C74712, []) := by decide +kernel

/-- X1, and X21's flag error seen with the other direction. -/
theorem test_frameRsp :
    parsed (exec (.frameRsp 0x00 0x0001 [] 0x45) (rxIn .hdr0)) = some (0x00000001, []) ∧
    parsed (exec (.frameRsp 0x10 0x00C9 [0x34, 0x12] 0x47) (rxIn .hdr0)) = some (0x0047FB12, []) := by decide +kernel

/-! ### The header, with both settings of HDR_EARLY_ABORT (X4, X5, X7, X9) -/

theorem test_header_start :
    parseOf false (toks [0x00, 0x58, 0x3C, 0x00]) = some (0x00000006, toks [0x00]) ∧
    parseOf true (toks [0x00, 0x58, 0x3C, 0x00]) = some (0x00000006, toks [0x58, 0x3C, 0x00]) := by decide

theorem test_header_version :
    parseOf false (toks [0x24, 0x4D, 0x3C, 0x00]) = some (0x0000000A, toks [0x00]) ∧
    parseOf true (toks [0x24, 0x4D, 0x3C, 0x00]) = some (0x0000000A, toks [0x3C, 0x00]) := by decide

theorem test_header_direction :
    parseOf false (toks [0x24, 0x58, 0x21, 0x00]) = some (0x0000000E, toks [0x00]) ∧
    parseOf true (toks [0x24, 0x58, 0x21, 0x00]) = some (0x0000000E, toks [0x00]) := by decide

theorem test_header_error_token :
    parseOf false [.byte 0x00, .ioerr 0x07] = some (0x07000003, []) ∧
    parseOf true [.byte 0x00, .ioerr 0x07] = some (0x00000006, [.ioerr 0x07]) := by decide

/-- X27: a length grown by one makes the checksum byte a payload byte; the parser waits. X29: a length of 0. -/
theorem test_length_errors :
    parseOf false (toks [0x24, 0x58, 0x3C, 0x00, 0xC9, 0x00, 0x03, 0x00, 0x34, 0x12, 0x47]) = some (0x00000020, []) ∧
    parseOf false (toks [0x24, 0x58, 0x3C, 0x00, 0xC9, 0x00, 0x00, 0x00, 0x34, 0x12, 0x47]) =
      some (0x00348E12, toks [0x12, 0x47]) := by decide +kernel

/-- The same verdicts from R105 (X9, X31, X33). -/
theorem test_parseTokens :
    parseTokens false [.byte 0x00, .ioerr 0x07] = some (.failed (.transportError 0x07), 2) ∧
    parseTokens true [.byte 0x00, .ioerr 0x07] = some (.failed .badStart, 1) ∧
    parseTokens false (toks [0x24, 0x58, 0x3C, 0x00, 0xC9, 0x00, 0x02, 0x00, 0x34] ++ [.ioerr 0x2A, .byte 0x12]) =
      some (.failed (.transportError 0x2A), 10) ∧
    parseTokens false (toks [0x24, 0x58, 0x3C, 0x00, 0xC9, 0x00]) = none := by decide

/-! ### A step from reset with an instruction placed -/

theorem test_step_command : (nextOf (step (State.reset.withFetchWord 40 0x600000000))).map (fun s => (s.rx.phase, s.rsp)) =
    some (.hdr0, [0x000000000]) := by decide

theorem test_step_illegal : nextOf (step (State.reset.withFetchWord 40 0xE00000000)) =
    some { State.reset with rsp := [0x400000000] } := by decide

theorem test_step_frame :
    (nextOf (step (State.reset.withFetchWord 24 0x24583E))).map (fun s => (rxStatusValue s, s.rx.len, s.rxs)) =
    some (0x00000001, 0, []) := by decide +kernel

/-! ### Witnesses: inputs that meet a statement's hypotheses, clause by clause -/

/-- A state with the given parser phase and the given tokens. -/
def rxWith (p : RxPhase) (t : List Token) : State := { rxIn p with rxs := t }

/-- A state whose next turn is `turn`. -/
def turnNext (turn : Turn) (s : State) : State := { s with agenda := [turn] }

/-- A parse in R_PAYLOAD at the given counter, one byte of the frame on `rxs`. -/
def payloadAt (cnt : Half) : State :=
  { State.reset with rxs := toks [0x34], rx := { RxRegs.reset with phase := .payload, len := 0xFFFF, cnt := cnt } }

/-- The machine's invariant holds of a state that holds the frame of B6. -/
theorem holding_invariant : MachineInv ⟨0x00, []⟩ (holding 1) where
  busy := by unfold busyHoldsNoResult; decide
  errors := by unfold errorsMatchResult; decide
  named := by decide
  rxCrc := fun _ => ⟨rfl, by decide, by unfold bytesWritten; decide, by decide +kernel⟩
  early := fun _ => by decide
  txCrc := trivial
  mem := by decide

theorem witness_DecodeOfEncode : (Instr.frameReq 1 2 (List.replicate 65535 0) 3).lengthFits = true ∧
    (Instr.frameRsp 1 2 [] 3).lengthFits = true ∧ Instr.crcRead.lengthFits = true := by
  simp only [Instr.lengthFits, List.length_replicate]; decide

theorem witness_EncodeOfDecode : decodeCmd 0x2000000FF#36 = .ok (.crcUpdate 0xFF) ∧
    decodeFrame [0x24, 0x58, 0x3C, 0, 1, 0, 0, 0, 0x45, 7] = .ok (.frameReq 0 1 [] 0x45, [7]) := by decide

theorem witness_CommandWordSelectsOneRow : decodeCmd 0xD00000000#36 = .ok .rxRelease ∧
    decodeCmd 0x200000031#36 = .ok (.crcUpdate 0x31) ∧
    decodeCmd 0x4000200C9#36 = .ok (.txBuild 0x00C9 0x0002) := by decide

theorem witness_ReservedCommandWords : decodeCmd 0xF12345678#36 = .error (.reservedOp 0xF) := by decide

theorem witness_StepRunsDecodedCommand :
    ((turnNext (.agent .cmd) { State.reset with cmd := [0x300000000] }).agenda = .agent .cmd :: [] ∧
      (turnNext (.agent .cmd) { State.reset with cmd := [0x300000000] }).cmd = 0x300000000 :: [] ∧
      decodeCmd 0x300000000 = .ok .crcRead) ∧
    (turnNext (.agent .cmd) { State.reset with cmd := [0x300000001] }).cmd = 0x300000001 :: [] ∧
      decodeCmd 0x300000001 = .error (.reservedBits 0x3 1) := by decide

theorem witness_StepRunsFrameAtHead : (Instr.frameRsp 0 1 [] 0x45).lengthFits = true ∧
    encode (.frameRsp 0 1 [] 0x45) = .wire [0x24, 0x58, 0x3E, 0, 1, 0, 0, 0, 0x45] ∧
    (turnNext .frame (rxWith .hdr0 (toks [0x24, 0x58, 0x3E, 0, 1, 0, 0, 0, 0x45, 7]))).rxs =
      toks [0x24, 0x58, 0x3E, 0, 1, 0, 0, 0, 0x45] ++ [.byte 7] ∧
    (turnNext .frame (rxWith .hdr0 [])).agenda = .frame :: [] := by decide

theorem witness_StepGivesTurnToAgent : (turnNext (.agent .txseq) State.reset).agenda = .agent .txseq :: [] ∧
    (turnNext (.agent .rxseq) State.reset).agenda = .agent .rxseq :: [] ∧
    (turnNext (.env .reset) State.reset).agenda = .env .reset :: [] ∧ State.reset.agenda = [] := by decide

theorem witness_FrameTurnIsTokenSteps : (Instr.frameReq 0 2 [5] 6).lengthFits = true ∧
    encode (.frameReq 0 2 [5] 6) = .wire [0x24, 0x58, 0x3C, 0, 2, 0, 1, 0, 5, 6] ∧
    (rxWith .hdr0 (toks [0x24, 0x58, 0x3C, 0, 2, 0, 1, 0, 5, 6])).rxs =
      [0x24, 0x58, 0x3C, 0, 2, 0, 1, 0, 5, 6].map .byte ++ [] := by decide

theorem witness_CrcUpdateClosedForm : (0xFF : Byte) = 0x6A ^^^ 0x95 ∧ 0xF9 = crc8Update 0x6A 0x95 := by decide

theorem witness_CrcLaws : ([1, 2] : List Byte).length = ([3, 4] : List Byte).length ∧ 0 < 8 ∧ 7 < 8 := by decide

theorem witness_TxBuildEffect : State.reset.tx.phase = .idle ∧ (txIn .hdr0).tx.phase ≠ .idle ∧
    (txIn .crc).tx.phase ≠ .idle := by decide

theorem witness_TxFixedByteSteps : (txIn .hdr0).sinkReady = true ∧ (txIn .hdr0).tx.phase = .hdr0 ∧
    (txIn .hdr1).tx.phase = .hdr1 ∧ (txIn .hdr2).tx.phase = .hdr2 ∧ (txIn .flag).tx.phase = .flag ∧
    (txIn .codeLo).tx.phase = .codeLo ∧ (txIn .codeHi).tx.phase = .codeHi ∧ (txIn .lenLo).tx.phase = .lenLo ∧
    (txIn .lenHi).sinkReady = true ∧ (txIn .lenHi).tx.phase = .lenHi := by decide

theorem witness_TxPayloadAndChecksumSteps :
    ({ txIn .payload with txp := [1, 2] }.sinkReady = true ∧ { txIn .payload with txp := [1, 2] }.tx.phase = .payload ∧
      { txIn .payload with txp := [1, 2] }.txp = 1 :: [2]) ∧
    ((txIn .crc).sinkReady = true ∧ (txIn .crc).tx.phase = .crc) ∧
    ((txIn .payload).tx.phase = .payload ∧ (txIn .payload).txp = []) ∧
    { txIn .hdr0 with sinkReady := false }.sinkReady = false ∧ State.reset.tx.phase = .idle := by decide

theorem witness_TxBuildEmitsBuiltFrame :
    (decodeCmd 0x4000200C9 = .ok (.txBuild 0x00C9 2) ∧ [(0x4000200C9 : PortWord)] = 0x4000200C9 :: [] ∧
      State.reset.tx.phase = .idle ∧ State.reset.sinkReady = true ∧
      ([0x34, 0x12, 9] : List Byte) = [0x34, 0x12] ++ [9] ∧ ([0x34, 0x12] : List Byte).length = (2 : Half).toNat) ∧
    decodeCmd 0x400000001 = .ok (.txBuild 0x0001 0) ∧ ([] : List Byte).length = (0 : Half).toNat ∧
    0 < 9 + ([] : List Byte).length ∧ 8 < 9 + ([] : List Byte).length := by decide

theorem witness_BuildInProgressUndisturbed : (txIn .lenLo).tx.phase ≠ .idle ∧
    Turn.agent .rxseq ≠ .agent .txseq ∧ Turn.agent .rxseq ≠ .env .reset ∧
    takeTurn (.agent .rxseq) (txIn .lenLo) = .next (txIn .lenLo) ∧
    takeTurn (.env (.hostPayload 5)) (txIn .lenLo) = .next { txIn .lenLo with txp := [5] } :=
  ⟨by decide, by decide, by decide, rfl, rfl⟩

theorem witness_RxParseEffect : (State.reset.rx.phase = .idle ∧ State.reset.rx.result = .none) ∧
    (rxIn .hdr0).rx.phase ≠ .idle ∧ (holding 0).rx.result ≠ .none := by decide

theorem witness_RxStepTakesOneToken : State.reset.rx.phase = .idle ∧ (rxIn .crc).rxs = [] ∧
    ((rxWith .flag (toks [1, 2])).rx.phase ≠ .idle ∧ (rxWith .flag (toks [1, 2])).rxs = .byte 1 :: toks [2]) ∧
    ∃ u, rxStep (rxWith .flag (toks [1, 2])) = .next u := ⟨rfl, rfl, by decide, _, rfl⟩

theorem witness_RxTransportErrorStep : (rxWith .hdr0 [.ioerr 0x11]).rx.phase ≠ .idle ∧
    (rxWith .hdr0 [.ioerr 0x11]).rxs = .ioerr 0x11 :: [] ∧ (rxWith .crc [.ioerr 0xFF]).rx.phase ≠ .idle := by decide

theorem witness_RxHeaderByteSteps :
    ((rxWith .hdr0 (toks [0x00])).rxs = .byte 0x00 :: [] ∧ (rxWith .hdr0 (toks [0x00])).rx.phase = .hdr0 ∧
      (true = true ∧ (0x00 : Byte) ≠ 0x24) ∧ ¬(false = true ∧ (0x00 : Byte) ≠ 0x24) ∧
      ¬(true = true ∧ (0x24 : Byte) ≠ 0x24)) ∧
    (rxWith .hdr1 (toks [0x4D])).rxs = .byte 0x4D :: [] ∧ (rxWith .hdr1 (toks [0x4D])).rx.phase = .hdr1 ∧
      (true = true ∧ (0x4D : Byte) ≠ 0x58) ∧ ¬(false = true ∧ (0x4D : Byte) ≠ 0x58) := by decide

theorem witness_RxHeaderCheckStep : (rxWith .hdr2 (toks [0x3E])).rxs = .byte 0x3E :: [] ∧
    (rxWith .hdr2 (toks [0x3E])).rx.phase = .hdr2 := by decide

theorem witness_RxFixedFieldSteps : (rxWith .flag (toks [0xA5])).rxs = .byte 0xA5 :: [] ∧
    (rxWith .flag (toks [0xA5])).rx.phase = .flag ∧ (rxWith .codeLo (toks [1])).rx.phase = .codeLo ∧
    (rxWith .codeHi (toks [1])).rx.phase = .codeHi ∧ (rxWith .lenLo (toks [1])).rx.phase = .lenLo ∧
    (rxWith .lenHi (toks [0])).rxs = .byte 0 :: [] ∧ (rxWith .lenHi (toks [0])).rx.phase = .lenHi := by decide

theorem witness_RxPayloadStep : (payloadAt 0).rxs = .byte 0x34 :: [] ∧ (payloadAt 0).rx.phase = .payload ∧
    (payloadAt 0).rx.cnt.toNat < 65535 ∧ (payloadAt 65534).rx.cnt.toNat < 65535 ∧
    (payloadAt 65535).rx.phase = .payload ∧ (payloadAt 65535).rx.cnt.toNat = 65535 := by decide

theorem witness_RxChecksumStep : (rxWith .crc (toks [0x00])).rxs = .byte 0x00 :: [] ∧
    (rxWith .crc (toks [0x00])).rx.phase = .crc ∧ 0x00 = (rxWith .crc (toks [0x00])).rx.crc ∧
    0x45 ≠ (rxWith .crc (toks [0x45])).rx.crc := by decide

theorem witness_ParserComputesReference : (rxWith .hdr0 (toks [0x24, 0x58])).rx.phase = .hdr0 ∧
    (rxWith .hdr0 (toks [0x24, 0x58])).rx.result = .none ∧ (rxWith .hdr0 (toks [0x24, 0x58])).rx.cause = .noCause ∧
    (rxWith .hdr0 (toks [0x24, 0x58])).rx.errComputed = 0 ∧ (rxWith .hdr0 (toks [0x24, 0x58])).rx.errReceived = 0 ∧
    (rxWith .hdr0 (toks [0x24, 0x58])).rx.errIo = 0 := by decide

theorem witness_RightFrameIsDelivered : ([0x34, 0x12] : List Byte).length ≤ 65535 ∧ (rxIn .hdr0).rx.phase = .hdr0 ∧
    Instr.frameReq 0 0x00C9 [0x34, 0x12] 0x47 = .frameReq 0 0x00C9 [0x34, 0x12] (frameChecksum 0 0x00C9 [0x34, 0x12]) ∧
    Instr.frameRsp 0 0x0001 [] 0x45 = .frameRsp 0 0x0001 [] (frameChecksum 0 0x0001 []) ∧
    (List.replicate 65535 (0 : Byte)).length ≤ 65535 :=
  ⟨by decide, by decide, by decide +kernel, by decide +kernel, by simp only [List.length_replicate]; decide⟩

theorem witness_WrongChecksumIsReported : ([] : List Byte).length ≤ 65535 ∧ (rxIn .hdr0).rx.phase = .hdr0 ∧
    (0x7C : Byte) ≠ frameChecksum 0 0x0001 [] ∧
    (Instr.frameReq 0 0x0001 [] 0x7C = .frameReq 0 0x0001 [] 0x7C) := by decide +kernel

/-- Bit 0 of the flag, and bit 7 of the last payload byte. -/
theorem witness_SingleBitErrorDetected : ([0x34, 0x12] : List Byte).length ≤ 65535 ∧
    ([0x34, 0x92] : List Byte).length = ([0x34, 0x12] : List Byte).length ∧ (rxIn .hdr0).rx.phase = .hdr0 ∧
    (0 < 8 ∧ frameBody 0 0x00C9 [0x34, 0x12] = [] ++ 0 :: [0xC9, 0, 2, 0, 0x34, 0x12] ∧
      frameBody 1 0x00C9 [0x34, 0x12] = [] ++ (0 ^^^ BitVec.twoPow 8 0) :: [0xC9, 0, 2, 0, 0x34, 0x12]) ∧
    7 < 8 ∧ frameBody 0 0x00C9 [0x34, 0x12] = [0, 0xC9, 0, 2, 0, 0x34] ++ 0x12 :: [] ∧
      frameBody 0 0x00C9 [0x34, 0x92] = [0, 0xC9, 0, 2, 0, 0x34] ++ (0x12 ^^^ BitVec.twoPow 8 7) :: [] := by decide

theorem witness_FrameWaitsWithoutParse : State.reset.rx.phase = .idle ∧ (holding 1).rx.phase = .idle := by decide

theorem witness_RxStatusEffect : ∃ h, MachineInv h (holding 1) := ⟨_, holding_invariant⟩

theorem witness_RxHeadEffect : (holding 0).rx.result = .frame ∧ (rxIn .hdr1).rx.result ≠ .frame := by decide

theorem witness_RxGet8Effect : State.reset.rx.result ≠ .frame ∧
    ((holding 2).rx.result = .frame ∧ (holding 2).rx.len.toNat < (holding 2).rx.cursor.toNat + 1) ∧
    (holding 1).rx.result = .frame ∧ (holding 1).rx.cursor.toNat + 1 ≤ (holding 1).rx.len.toNat := by decide

theorem witness_RxGet16Effect : State.reset.rx.result ≠ .frame ∧
    ((holding 1).rx.result = .frame ∧ (holding 1).rx.len.toNat < (holding 1).rx.cursor.toNat + 2) ∧
    (holding 0).rx.result = .frame ∧ (holding 0).rx.cursor.toNat + 2 ≤ (holding 0).rx.len.toNat := by decide

theorem witness_RxGet32Effect : State.reset.rx.result ≠ .frame ∧
    ((holding 0).rx.result = .frame ∧ (holding 0).rx.len.toNat < (holding 0).rx.cursor.toNat + 4) ∧
    holdingFour.rx.result = .frame ∧ holdingFour.rx.cursor.toNat + 4 ≤ holdingFour.rx.len.toNat := by decide

theorem witness_RxCursorEffect : (holding 2).rx.result = .frame ∧ State.reset.rx.result ≠ .frame := by decide

/-- A read moves the cursor forward; a delivery sets it to 0. -/
theorem witness_CursorOnlyMovesForward : Turn.agent .cmd ≠ .env .reset ∧
    (∃ t, takeTurn (.agent .cmd) { holding 1 with cmd := [0x900000000] } = .next t ∧ t.rx.cursor = 2) ∧
    ∃ t, takeTurn (.agent .rxseq) { rxWith .crc (toks [0]) with rx := { (rxIn .crc).rx with cursor := 7 } } = .next t ∧
      t.rx.cursor = 0 := ⟨by decide, ⟨_, rfl, rfl⟩, _, rfl, rfl⟩

theorem witness_ScalarRoundTrip : (rxIn .hdr0).rx.phase = .hdr0 ∧
    (putAll [.s16 0x1234, .s8 0x07, .s32 0x12345678]).length ≤ 65535 ∧ (putAll []).length ≤ 65535 := by decide

theorem witness_UnwrittenBytesNeverObserved : MachineInv ⟨0x00, []⟩ (holding 1) ∧ Instr.rxGet8.isCommand = true ∧
    Instr.txStatus.isCommand = true := ⟨holding_invariant, rfl, rfl⟩

theorem witness_RaiseEntrySequence : (0x00 : Byte) ≠ 0x24 ∧ (0x4D : Byte) ≠ 0x58 := by decide

theorem witness_EveryCommandOneResponse : (0x300000000 : PortWord).extractLsb' 32 4 ≠ 0#4 := by decide

theorem witness_CommandsWriteOnlyTheirRegisters : (∃ t, runCommand 0x900000000 (holding 1) = .next t) ∧
    (txIn .hdr0).tx.phase ≠ .idle ∧ (rxIn .hdr0).rx.phase ≠ .idle ∧ State.reset.rx.result ≠ .frame :=
  ⟨⟨_, rfl⟩, by decide, by decide, by decide⟩

theorem witness_HeldOutcomeStays : (holding 1).rx.phase = .idle ∧ Turn.agent .rxseq ≠ .agent .cmd ∧
    Turn.agent .rxseq ≠ .env .reset ∧ ∃ t, takeTurn (.agent .rxseq) { holding 1 with rxs := toks [1] } = .next t :=
  ⟨rfl, by decide, by decide, _, rfl⟩

theorem witness_ReleaseMakesParserReady : (holding 1).rx.phase = .idle ∧ (holding 1).rx.result ≠ .none := by decide

theorem witness_SequencersWriteOnlyTheirOwn : ∃ t, rxStep (rxWith .lenLo (toks [5])) = .next t := ⟨_, rfl⟩

theorem witness_WaitingChangesNothing : agentEnabled .cmd State.reset = false ∧ agentEnabled .rxseq (rxIn .hdr0) = false ∧
    agentEnabled .txseq (txIn .payload) = false ∧ (txIn .payload).sinkReady = true := by decide

theorem witness_RstResetsRegisters : (turnNext (.env .reset) (holding 1)).agenda = .env .reset :: [] := by decide

theorem witness_StepKeepsInvariant :
    MachineInv ⟨0x00, []⟩ (turnNext (.agent .cmd) { holding 1 with cmd := [0x900000000] }) ∧
    ∃ t, step (turnNext (.agent .cmd) { holding 1 with cmd := [0x900000000] }) = .next t ∧ t.rx.cursor = 2 :=
  ⟨⟨holding_invariant.busy, holding_invariant.errors, holding_invariant.named, holding_invariant.rxCrc,
    holding_invariant.early, holding_invariant.txCrc, holding_invariant.mem⟩, _, rfl, rfl⟩

theorem witness_InvariantNeverStops : MachineInv ⟨0x00, []⟩ (holding 1) := holding_invariant

/-- A command given by the host and executed: a parse is running. -/
theorem witness_ReachableStatesSatisfyR28 :
    Reachable ⟨0x00, []⟩ { rxIn .hdr0 with rsp := [0x000000000] } :=
  ⟨[.env (.hostCommand 0x600000000), .agent .cmd], 2, ⟨0x00, []⟩, rfl, rfl⟩

end Sys2Proof.Tests
end

section
/-! SUPPORT. What the statements about R28 need: how the history grows, what a command, a token, a frame and an event do
to the parser's and to the builder's half of the machine's invariant. -/

namespace Sys2Proof.Machine

/-! ### The checksum and RX_BUF, one byte at a time -/

/-- R77: the fold over one byte more. -/
theorem crc8_concat (l : List Byte) (b : Byte) : crc8 (l ++ [b]) = crc8Update (crc8 l) b := by
  simp [crc8, crc8From]

theorem bufBytes_succ (s : State) (a n : Nat) : s.bufBytes a (n + 1) = s.bufBytes a n ++ [s.bufByte (a + n)] := by
  simp [State.bufBytes, List.range_succ]

theorem bytesWritten_zero (s : State) : bytesWritten s 0 := fun _ hi => absurd hi (Nat.not_lt_zero _)

/-- A byte stored just behind the written ones is written too (R37, R119). -/
theorem bytesWritten_write {s t : State} {n : Nat} {b : Byte} (hbuf : t.rx.buf = Memory.write s.rx.buf n b)
    (hw : bytesWritten s n) : bytesWritten t (n + 1) := by
  intro i hi
  rw [hbuf]
  by_cases h : i = n
  · rw [h, Memory.read_write_same]; rfl
  · rw [Memory.read_write_other _ _ _ _ h]
    exact hw i (by omega)

/-- R119: storing at index `n` appends to the first `n` bytes. -/
theorem bufBytes_write {s t : State} {n : Nat} {b : Byte} (hbuf : t.rx.buf = Memory.write s.rx.buf n b)
    (he : t.bufEpoch = s.bufEpoch) : t.bufBytes 0 (n + 1) = s.bufBytes 0 n ++ [b] := by
  have hnew : t.bufByte (0 + n) = b := by
    rw [Nat.zero_add]
    exact State.bufByte_of_read (by rw [hbuf, Memory.read_write_same])
  have hold : t.bufBytes 0 n = s.bufBytes 0 n := by
    refine List.map_congr_left fun k hk => State.bufByte_congr ?_ he
    have := List.mem_range.mp hk
    rw [hbuf, Memory.read_write_other _ _ _ _ (by omega)]
  rw [bufBytes_succ, hnew, hold]

/-- A 16-bit count below a 16-bit length does not wrap (R13, R94, R119). -/
theorem toNat_add_one_of_lt {a b : Half} (h : a.toNat < b.toNat) : (a + 1).toNat = a.toNat + 1 := by
  have := b.isLt
  have hone : (1 : Half).toNat = 1 := rfl
  rw [BitVec.toNat_add_of_lt (by omega), hone]

/-! ### How the history grows -/

/-- The flag byte among tokens taken, `k` tokens standing before it; `before` where it is not among them. -/
def flagAmong (before : Byte) (k : Option Nat) (taken : List Token) : Byte :=
  match k with
  | none => before
  | some k =>
    match taken[k]? with
    | some (.byte b) => b
    | _ => before

theorem flagTaken_eq_flagAmong (f : Byte) (s t : State) :
    flagTaken f s t = flagAmong f (tokensBeforeFlag s.rx.phase) (s.rxs.take (s.rxs.length - t.rxs.length)) := rfl

@[simp] theorem flagAmong_nil (f : Byte) (k : Option Nat) : flagAmong f k [] = f := by
  cases k <;> rfl

/-- After one token the flag byte stands one place nearer, or has been passed. -/
theorem flagAmong_cons (f : Byte) (k : Option Nat) (tok : Token) (taken : List Token) :
    flagAmong f k (tok :: taken) = flagAmong (flagAmong f k [tok]) (k.bind Nat.ppred) taken := by
  match k with
  | none => rfl
  | some 0 => rfl
  | some (k + 1) => rfl

/-- A step that takes no token leaves the flag byte as it was. -/
theorem flagTaken_of_le {s t : State} (f : Byte) (h : s.rxs.length ≤ t.rxs.length) : flagTaken f s t = f := by
  rw [flagTaken_eq_flagAmong, Nat.sub_eq_zero_of_le h, List.take_zero, flagAmong_nil]

/-- The flag byte of a step that takes the tokens `taken` from the head of `rxs`. -/
theorem flagTaken_of_taken {s t : State} {taken : List Token} (f : Byte) (h : s.rxs = taken ++ t.rxs) :
    flagTaken f s t = flagAmong f (tokensBeforeFlag s.rx.phase) taken := by
  rw [flagTaken_eq_flagAmong, h, List.length_append, Nat.add_sub_cancel, List.take_left]

/-- A step that takes no payload byte leaves the bytes sent as they were, unless a build has just started. -/
theorem payloadSent_of_le {s t : State} (p : List Byte) (h : s.txp.length ≤ t.txp.length) :
    payloadSent p s t = if t.tx.phase = .hdr0 then [] else p := by
  rw [payloadSent, Nat.sub_eq_zero_of_le h, List.take_zero, List.append_nil]

/-! ### The two halves of the machine's invariant -/

/-- The parser's half of the machine's invariant, `f` being the flag byte that was received. -/
structure ParserInv (f : Byte) (s : State) : Prop where
  busy : busyHoldsNoResult s
  errors : errorsMatchResult s
  named : s.rx.result = .invalidPacket → s.rx.cause ≠ .noCause
  rxCrc : rxCrcTracksBody f s
  early : earlyHeaderChecked s
  mem : Memory.wf s.rx.buf

theorem machineInv_iff (h : History) (s : State) :
    MachineInv h s ↔ ParserInv h.flag s ∧ txCrcTracksBody h.sent s :=
  ⟨fun hi => ⟨⟨hi.busy, hi.errors, hi.named, hi.rxCrc, hi.early, hi.mem⟩, hi.txCrc⟩,
    fun ⟨hp, hb⟩ => ⟨hp.busy, hp.errors, hp.named, hp.rxCrc, hp.early, hb, hp.mem⟩⟩

/-- The parser's half speaks of the parser's registers and RX_BUF only. -/
theorem ParserInv.congr {f : Byte} {s t : State} (hinv : ParserInv f s) (hrx : t.rx = s.rx)
    (he : t.bufEpoch = s.bufEpoch) : ParserInv f t := by
  cases s
  cases t
  subst hrx he
  exact ⟨hinv.busy, hinv.errors, hinv.named, hinv.rxCrc, hinv.early, hinv.mem⟩

/-- The builder's half speaks of the builder's registers only. -/
theorem txCrcTracksBody_congr {p : List Byte} {s t : State} (hinv : txCrcTracksBody p s) (htx : t.tx = s.tx) :
    txCrcTracksBody p t := by
  unfold txCrcTracksBody
  rw [htx]
  exact hinv

/-- Before the first byte of a build is sent no payload byte is. -/
theorem sent_nil_of_hdr0 {p : List Byte} {s : State} (hinv : txCrcTracksBody p s)
    (hp : s.tx.phase = .hdr0) : p = [] := by
  simp only [txCrcTracksBody, hp] at hinv
  exact hinv.1

/-- A step that leaves the builder alone and takes no payload byte keeps the builder's half. -/
theorem txCrcTracksBody_of_tx_eq {p : List Byte} {s t : State} (hinv : txCrcTracksBody p s) (htx : t.tx = s.tx)
    (hle : s.txp.length ≤ t.txp.length) : txCrcTracksBody (payloadSent p s t) t := by
  have hsent : payloadSent p s t = p := by
    rw [payloadSent_of_le p hle]
    split
    · next hp => exact (sent_nil_of_hdr0 hinv (htx ▸ hp)).symm
    · rfl
  rw [hsent]
  exact txCrcTracksBody_congr hinv htx

/-! ### The parser with no outcome held -/

/-- RX_RESULT and the four error registers as RX.PARSE leaves them (R106). -/
def NoOutcome (rx : RxRegs) : Prop :=
  rx.result = .none ∧ rx.cause = .noCause ∧ rx.errComputed = 0 ∧ rx.errReceived = 0 ∧ rx.errIo = 0

theorem ParserInv.noOutcome_of_result {f : Byte} {s : State} (hinv : ParserInv f s) (hr : s.rx.result = .none) :
    NoOutcome s.rx := by
  obtain ⟨hcause, hcrc, -, hio⟩ := hinv.errors
  have hc : s.rx.cause = .noCause := hcause (by simp [hr])
  obtain ⟨hcomp, hrec⟩ := hcrc (by simp [hc])
  exact ⟨hr, hc, hcomp, hrec, hio (by simp [hr])⟩

/-- While a parse runs no outcome is held (R28 items 1 and 3). -/
theorem ParserInv.noOutcome {f : Byte} {s : State} (hinv : ParserInv f s) (hp : s.rx.phase ≠ .idle) :
    NoOutcome s.rx :=
  hinv.noOutcome_of_result (hinv.busy hp)

/-- A held result means that no parse runs. -/
theorem ParserInv.idle_of_frame {f : Byte} {s : State} (hinv : ParserInv f s) (hr : s.rx.result = .frame) :
    s.rx.phase = .idle := by
  by_contra hp
  simp [hinv.busy hp] at hr

/-- With no outcome held, the checksum, the early header check and the form of RX_BUF are all there is to show. -/
theorem ParserInv.of_noOutcome {f : Byte} {s : State} (ho : NoOutcome s.rx) (hcrc : rxCrcTracksBody f s)
    (hearly : earlyHeaderChecked s) (hmem : Memory.wf s.rx.buf) : ParserInv f s := by
  obtain ⟨hr, hc, hcomp, hrec, hio⟩ := ho
  exact ⟨fun _ => hr, by simp [errorsMatchResult, hc, hcomp, hrec, hio], by simp [hr], hcrc, hearly, hmem⟩

theorem earlyHeaderChecked_of_phase {s : State} (h1 : s.rx.phase ≠ .hdr1) (h2 : s.rx.phase ≠ .hdr2) :
    earlyHeaderChecked s := by
  simp [earlyHeaderChecked, h1, h2]

/-- Every failure ends the parse in a state of the invariant; BAD_CHECKSUM names two different bytes (R160). -/
theorem ParserInv.after_raise {f : Byte} {s : State} {x : ParseFailure} (ho : NoOutcome s.rx) (hmem : Memory.wf s.rx.buf)
    (hx : ∀ computed received, x = .badChecksum computed received → computed ≠ received) :
    ParserInv f (raise x s) := by
  obtain ⟨hr, hc, hcomp, hrec, hio⟩ := ho
  have hcrc : (raise x s).rx.result ≠ .frame → rxCrcTracksBody f (raise x s) := by
    intro hne
    simp [rxCrcTracksBody, hne]
  have hbusy : busyHoldsNoResult (raise x s) := fun hp => absurd (raise_rx_phase x s) hp
  have hearly : earlyHeaderChecked (raise x s) := earlyHeaderChecked_of_phase (by simp) (by simp)
  cases x with
  | badStart | badVersion | badDirection =>
    exact ⟨hbusy, by simp [errorsMatchResult, raise, hcomp, hrec, hio], by simp [raise],
      hcrc (by simp [raise]), hearly, hmem⟩
  | badChecksum computed received =>
    exact ⟨hbusy, by simp [errorsMatchResult, raise, hx, hio], by simp [raise],
      hcrc (by simp [raise]), hearly, hmem⟩
  | transportError e =>
    exact ⟨hbusy, by simp [errorsMatchResult, raise, hc, hcomp, hrec], by simp [raise],
      hcrc (by simp [raise]), hearly, hmem⟩

/-- The parser's registers at reset are in the invariant, whatever the flag byte (R29). -/
theorem ParserInv.of_reset {f : Byte} {s : State} (hrx : s.rx = RxRegs.reset) : ParserInv f s := by
  refine .of_noOutcome ?_ ?_ (earlyHeaderChecked_of_phase ?_ ?_) ?_
  · rw [hrx]
    exact ⟨rfl, rfl, rfl, rfl, rfl⟩
  · simp [rxCrcTracksBody, hrx, RxRegs.reset]
  · simp [hrx, RxRegs.reset]
  · simp [hrx, RxRegs.reset]
  · rw [hrx]
    exact Memory.reset_wf

/-! ### A token in each phase (R108 to R120) -/

section Phases

variable {f : Byte} {s : State}

/-- RXSEQ behind the length field, `RX_CNT` payload bytes taken: the next byte is the checksum when that is all of them
(R118, R119). -/
theorem ParserInv.of_payload_progress (ho : NoOutcome s.rx) (hle : s.rx.cnt.toNat ≤ s.rx.len.toNat)
    (hp : s.rx.phase = if s.rx.cnt = s.rx.len then .crc else .payload) (hw : bytesWritten s s.rx.cnt.toNat)
    (hcrc : crc8 (bodyHead f s.rx.code s.rx.len ++ s.bufBytes 0 s.rx.cnt.toNat) = s.rx.crc)
    (hmem : Memory.wf s.rx.buf) : ParserInv f s := by
  by_cases hfull : s.rx.cnt = s.rx.len
  · rw [if_pos hfull] at hp
    rw [hfull] at hw hcrc
    refine .of_noOutcome ho ?_ (earlyHeaderChecked_of_phase (by simp [hp]) (by simp [hp])) hmem
    simp only [rxCrcTracksBody, hp]
    exact ⟨hfull, hw, hcrc⟩
  · rw [if_neg hfull] at hp
    have hlt : s.rx.cnt.toNat < s.rx.len.toNat :=
      Nat.lt_of_le_of_ne hle fun h => hfull (BitVec.eq_of_toNat_eq h)
    refine .of_noOutcome ho ?_ (earlyHeaderChecked_of_phase (by simp [hp]) (by simp [hp])) hmem
    simp only [rxCrcTracksBody, hp]
    exact ⟨hlt, hw, hcrc⟩

theorem ParserInv.after_rxHdr0 (hinv : ParserInv f s) (hp : s.rx.phase = .hdr0) (b : Byte) :
    ParserInv f (rxHdr0 Config.hdrEarlyAbort b s) := by
  have ho := hinv.noOutcome (by simp [hp])
  unfold rxHdr0
  split
  · exact .after_raise ho hinv.mem (by simp)
  · next hb =>
    refine .of_noOutcome ho trivial (fun he => ⟨fun _ => ?_, nofun⟩) hinv.mem
    by_contra hne
    exact hb ⟨hne, he⟩

theorem ParserInv.after_rxHdr1 (hinv : ParserInv f s) (hp : s.rx.phase = .hdr1) (b : Byte) :
    ParserInv f (rxHdr1 Config.hdrEarlyAbort b s) := by
  have ho := hinv.noOutcome (by simp [hp])
  unfold rxHdr1
  split
  · exact .after_raise ho hinv.mem (by simp)
  · next hb =>
    refine .of_noOutcome ho trivial (fun he => ⟨fun _ => (hinv.early he).1 (.inl hp), fun _ => ?_⟩) hinv.mem
    by_contra hne
    exact hb ⟨hne, he⟩

theorem ParserInv.after_rxHdr2 (hinv : ParserInv f s) (hp : s.rx.phase = .hdr2) (b : Byte) :
    ParserInv f (rxHdr2 b s) := by
  have ho := hinv.noOutcome (by simp [hp])
  unfold rxHdr2
  split
  · exact .after_raise ho hinv.mem (by simp)
  split
  · exact .after_raise ho hinv.mem (by simp)
  split
  · exact .after_raise ho hinv.mem (by simp)
  · exact .of_noOutcome ho rfl (earlyHeaderChecked_of_phase nofun nofun) hinv.mem

/-- R114: from here on the flag byte taken is the one the checksum speaks of. -/
theorem ParserInv.after_rxFlag (hinv : ParserInv f s) (hp : s.rx.phase = .flag) (b : Byte) :
    ParserInv b (rxFlag b s) := by
  have hcrc : s.rx.crc = 0 := by simpa only [rxCrcTracksBody, hp] using hinv.rxCrc
  refine .of_noOutcome (hinv.noOutcome (by simp [hp])) ?_ (earlyHeaderChecked_of_phase nofun nofun) hinv.mem
  change crc8 [b] = crc8Update s.rx.crc b
  rw [hcrc]
  rfl

theorem ParserInv.after_rxCodeLo (hinv : ParserInv f s) (hp : s.rx.phase = .codeLo) (b : Byte) :
    ParserInv f (rxCodeLo b s) := by
  have hcrc : crc8 [f] = s.rx.crc := by simpa only [rxCrcTracksBody, hp] using hinv.rxCrc
  refine .of_noOutcome (hinv.noOutcome (by simp [hp])) ?_ (earlyHeaderChecked_of_phase nofun nofun) hinv.mem
  simp only [rxCrcTracksBody, rxCodeLo, loByte_halfOfBytes, ← hcrc]
  exact crc8_concat [f] b

theorem ParserInv.after_rxCodeHi (hinv : ParserInv f s) (hp : s.rx.phase = .codeHi) (b : Byte) :
    ParserInv f (rxCodeHi b s) := by
  have hcrc : crc8 [f, loByte s.rx.code] = s.rx.crc := by simpa only [rxCrcTracksBody, hp] using hinv.rxCrc
  refine .of_noOutcome (hinv.noOutcome (by simp [hp])) ?_ (earlyHeaderChecked_of_phase nofun nofun) hinv.mem
  simp only [rxCrcTracksBody, rxCodeHi, loByte_halfOfBytes, hiByte_halfOfBytes, ← hcrc]
  exact crc8_concat [f, _] b

theorem ParserInv.after_rxLenLo (hinv : ParserInv f s) (hp : s.rx.phase = .lenLo) (b : Byte) :
    ParserInv f (rxLenLo b s) := by
  have hcrc : crc8 [f, loByte s.rx.code, hiByte s.rx.code] = s.rx.crc := by
    simpa only [rxCrcTracksBody, hp] using hinv.rxCrc
  refine .of_noOutcome (hinv.noOutcome (by simp [hp])) ?_ (earlyHeaderChecked_of_phase nofun nofun) hinv.mem
  simp only [rxCrcTracksBody, rxLenLo, loByte_halfOfBytes, ← hcrc]
  exact crc8_concat [f, _, _] b

/-- R118: the last byte of the fixed part; the payload, if any, starts with no byte taken. -/
theorem ParserInv.after_rxLenHi (hinv : ParserInv f s) (hp : s.rx.phase = .lenHi) (b : Byte) :
    ParserInv f (rxLenHi b s) := by
  have hcrc : crc8 [f, loByte s.rx.code, hiByte s.rx.code, loByte s.rx.len] = s.rx.crc := by
    simpa only [rxCrcTracksBody, hp] using hinv.rxCrc
  refine .of_payload_progress (hinv.noOutcome (by simp [hp])) (Nat.zero_le _) (by simp [rxLenHi, eq_comm])
    (bytesWritten_zero _) ?_ hinv.mem
  change crc8 [f, loByte s.rx.code, hiByte s.rx.code, loByte (halfOfBytes (loByte s.rx.len) b),
    hiByte (halfOfBytes (loByte s.rx.len) b)] = crc8Update s.rx.crc b
  rw [loByte_halfOfBytes, hiByte_halfOfBytes, ← hcrc]
  exact crc8_concat [f, _, _, _] b

/-- R119: under the invariant a payload byte finds its place in RX_BUF. -/
theorem ParserInv.after_rxPayload (hinv : ParserInv f s) (hp : s.rx.phase = .payload) (b : Byte) :
    ∃ t, rxPayload b s = .next t ∧ ParserInv f t := by
  obtain ⟨hlt, hw, hcrc⟩ : s.rx.cnt.toNat < s.rx.len.toNat ∧ bytesWritten s s.rx.cnt.toNat ∧
      crc8 (bodyHead f s.rx.code s.rx.len ++ s.bufBytes 0 s.rx.cnt.toNat) = s.rx.crc := by
    simpa only [rxCrcTracksBody, hp] using hinv.rxCrc
  have hi : s.rx.cnt.toNat < 65535 := by
    have := s.rx.len.isLt
    omega
  have hcnt := toNat_add_one_of_lt hlt
  have hstore : storePayloadByte b s = .ok (Memory.write s.rx.buf s.rx.cnt.toNat b) := if_pos hi
  have hcrc' : ∀ t : State, t.rx.buf = Memory.write s.rx.buf s.rx.cnt.toNat b → t.bufEpoch = s.bufEpoch →
      crc8 (bodyHead f s.rx.code s.rx.len ++ t.bufBytes 0 (s.rx.cnt.toNat + 1)) = crc8Update s.rx.crc b := by
    intro t hbuf he
    rw [bufBytes_write hbuf he, ← List.append_assoc, crc8_concat, hcrc]
  simp only [rxPayload, hstore]
  refine ⟨_, rfl, .of_payload_progress (hinv.noOutcome (by simp [hp])) ?_ rfl ?_ ?_ (Memory.write_wf hinv.mem hi)⟩
  · simp only [hcnt]
    exact hlt
  · simp only [hcnt]
    exact bytesWritten_write rfl hw
  · simp only [hcnt]
    exact hcrc' _ rfl rfl

/-- R120: a frame whose checksum agrees is delivered, any other is BAD_CHECKSUM. -/
theorem ParserInv.after_rxChecksum (hinv : ParserInv f s) (hp : s.rx.phase = .crc) (b : Byte) :
    ParserInv f (rxChecksum b s) := by
  obtain ⟨hcnt, hw, hcrc⟩ : s.rx.cnt = s.rx.len ∧ bytesWritten s s.rx.len.toNat ∧
      crc8 (bodyHead f s.rx.code s.rx.len ++ s.bufBytes 0 s.rx.len.toNat) = s.rx.crc := by
    simpa only [rxCrcTracksBody, hp] using hinv.rxCrc
  have ho := hinv.noOutcome (by simp [hp])
  unfold rxChecksum
  split
  · obtain ⟨-, hc, hcomp, hrec, hio⟩ := ho
    exact ⟨fun h => absurd rfl h, by simp [errorsMatchResult, hc, hcomp, hrec, hio], nofun,
      fun _ => ⟨hcnt, Nat.zero_le _, hw, hcrc⟩, earlyHeaderChecked_of_phase nofun nofun, hinv.mem⟩
  · next hne =>
    refine .after_raise ho hinv.mem ?_
    rintro _ _ ⟨⟩ h
    exact hne h.symm

/-- A token keeps the parser's half, the flag byte being replaced where the token is one (R27, R114). -/
theorem ParserInv.after_rxToken (hinv : ParserInv f s) (hbusy : s.rx.phase ≠ .idle) (tok : Token) :
    ∃ t, rxToken Config.hdrEarlyAbort tok s = .next t ∧
      ParserInv (flagAmong f (tokensBeforeFlag s.rx.phase) [tok]) t := by
  cases tok with
  | ioerr e => exact ⟨_, rfl, .after_raise (hinv.noOutcome hbusy) hinv.mem (by simp)⟩
  | byte b =>
    simp only [rxToken, rxByte]
    cases hp : s.rx.phase with
    | idle => exact absurd hp hbusy
    | hdr0 => exact ⟨_, rfl, hinv.after_rxHdr0 hp b⟩
    | hdr1 => exact ⟨_, rfl, hinv.after_rxHdr1 hp b⟩
    | hdr2 => exact ⟨_, rfl, hinv.after_rxHdr2 hp b⟩
    | flag => exact ⟨_, rfl, hinv.after_rxFlag hp b⟩
    | codeLo => exact ⟨_, rfl, hinv.after_rxCodeLo hp b⟩
    | codeHi => exact ⟨_, rfl, hinv.after_rxCodeHi hp b⟩
    | lenLo => exact ⟨_, rfl, hinv.after_rxLenLo hp b⟩
    | lenHi => exact ⟨_, rfl, hinv.after_rxLenHi hp b⟩
    | payload => exact hinv.after_rxPayload hp b
    | crc => exact ⟨_, rfl, hinv.after_rxChecksum hp b⟩

end Phases

/-! ### A run of tokens: a turn of RXSEQ and a whole frame (R105, R107) -/

theorem rxHdr0_phase (early : Bool) (b : Byte) (s : State) :
    (rxHdr0 early b s).rx.phase = .idle ∨ (rxHdr0 early b s).rx.phase = .hdr1 := by
  unfold rxHdr0
  split
  · exact .inl rfl
  · exact .inr rfl

theorem rxHdr1_phase (early : Bool) (b : Byte) (s : State) :
    (rxHdr1 early b s).rx.phase = .idle ∨ (rxHdr1 early b s).rx.phase = .hdr2 := by
  unfold rxHdr1
  split
  · exact .inl rfl
  · exact .inr rfl

theorem rxHdr2_phase (b : Byte) (s : State) :
    (rxHdr2 b s).rx.phase = .idle ∨ (rxHdr2 b s).rx.phase = .flag := by
  unfold rxHdr2
  repeat' split
  · exact .inl rfl
  · exact .inl rfl
  · exact .inl rfl
  · exact .inr rfl

theorem rxLenHi_phase (b : Byte) (s : State) :
    (rxLenHi b s).rx.phase = .crc ∨ (rxLenHi b s).rx.phase = .payload := by
  simp only [rxLenHi]
  split
  · exact .inl rfl
  · exact .inr rfl

theorem rxPayload_phase {b : Byte} {s t : State} (ht : rxPayload b s = .next t) :
    t.rx.phase = .crc ∨ t.rx.phase = .payload := by
  unfold rxPayload at ht
  split at ht
  · cases ht
  · cases ht
    dsimp only
    split
    · exact .inl rfl
    · exact .inr rfl

theorem rxChecksum_phase (b : Byte) (s : State) : (rxChecksum b s).rx.phase = .idle := by
  unfold rxChecksum
  split <;> rfl

/-- A token that does not end the parse brings the flag byte one place nearer, or passes it. -/
theorem tokensBeforeFlag_of_rxToken {early : Bool} {tok : Token} {s t : State}
    (ht : rxToken early tok s = .next t) (hs : s.rx.phase ≠ .idle) (hbusy : t.rx.phase ≠ .idle) :
    tokensBeforeFlag t.rx.phase = (tokensBeforeFlag s.rx.phase).bind Nat.ppred := by
  cases tok with
  | ioerr e =>
    cases ht
    exact absurd rfl hbusy
  | byte b =>
    simp only [rxToken, rxByte] at ht
    cases hp : s.rx.phase with
    | idle => exact absurd hp hs
    | hdr0 =>
      simp only [hp] at ht
      cases ht
      rw [(rxHdr0_phase early b s).resolve_left hbusy]
      rfl
    | hdr1 =>
      simp only [hp] at ht
      cases ht
      rw [(rxHdr1_phase early b s).resolve_left hbusy]
      rfl
    | hdr2 =>
      simp only [hp] at ht
      cases ht
      rw [(rxHdr2_phase b s).resolve_left hbusy]
      rfl
    | flag | codeLo | codeHi | lenLo =>
      simp only [hp] at ht
      cases ht
      rfl
    | lenHi =>
      simp only [hp] at ht
      cases ht
      rcases rxLenHi_phase b s with h | h <;> rw [h] <;> rfl
    | payload =>
      simp only [hp] at ht
      rcases rxPayload_phase ht with h | h <;> rw [h] <;> rfl
    | crc =>
      simp only [hp] at ht
      cases ht
      exact absurd (rxChecksum_phase b s) hbusy

/-- A token writes the parser's registers only (R170). -/
theorem rxToken_keeps_streams {early : Bool} {tok : Token} {s t : State} (ht : rxToken early tok s = .next t) :
    t.rxs = s.rxs ∧ t.tx = s.tx ∧ t.txp = s.txp := by
  rcases rxToken_cases early tok s with ⟨regs, h⟩ | h
  · rw [ht] at h
    cases h
    exact ⟨rfl, rfl, rfl⟩
  · rw [ht] at h
    cases h

/-- With no parse running all tokens stay (R107, R129). -/
theorem rxTokens_of_idle (early : Bool) (ts : List Token) {s : State} (hs : s.rx.phase = .idle) :
    rxTokens early ts s = .next { s with rxs := ts ++ s.rxs } := by
  cases ts with
  | nil => rfl
  | cons tok ts => simp [rxTokens, rxBusy, hs]

theorem rxTokens_cons {early : Bool} {tok : Token} {s t : State} (ts : List Token) (hs : s.rx.phase ≠ .idle)
    (ht : rxToken early tok s = .next t) : rxTokens early (tok :: ts) s = rxTokens early ts t := by
  simp [rxTokens, rxBusy, hs, ht]

theorem rxTokens_singleton (early : Bool) (tok : Token) {s : State} (hs : s.rx.phase ≠ .idle) :
    rxTokens early [tok] s = rxToken early tok s := by
  cases h : rxToken early tok s <;> simp [rxTokens, rxBusy, hs, h]

/-- Tokens offered to the parser keep its half of the invariant, with the flag byte among those it takes; the others stay
at the head of `rxs` (R129). -/
theorem ParserInv.after_rxTokens {f : Byte} {s : State} (hinv : ParserInv f s) (ts : List Token) :
    ∃ t taken left, rxTokens Config.hdrEarlyAbort ts s = .next t ∧ ts = taken ++ left ∧
      t.rxs = left ++ s.rxs ∧ t.tx = s.tx ∧ t.txp = s.txp ∧
      ParserInv (flagAmong f (tokensBeforeFlag s.rx.phase) taken) t := by
  induction ts generalizing f s with
  | nil => exact ⟨s, [], [], rfl, rfl, rfl, rfl, rfl, by simpa using hinv⟩
  | cons tok ts ih =>
    by_cases hs : s.rx.phase = .idle
    · exact ⟨_, [], tok :: ts, rxTokens_of_idle _ _ hs, rfl, rfl, rfl, rfl,
        (flagAmong_nil f _).symm ▸ hinv.congr rfl rfl⟩
    · obtain ⟨u, hu, hinvu⟩ := hinv.after_rxToken hs tok
      obtain ⟨hurxs, hutx, hutxp⟩ := rxToken_keeps_streams hu
      rw [rxTokens_cons ts hs hu, ← hurxs, ← hutx, ← hutxp]
      by_cases hbusy : u.rx.phase = .idle
      · exact ⟨_, [tok], ts, rxTokens_of_idle _ _ hbusy, rfl, rfl, rfl, rfl, hinvu.congr rfl rfl⟩
      · obtain ⟨t, taken, left, ht, rfl, hrxs, htx, htxp, hinvt⟩ := ih hinvu
        refine ⟨t, tok :: taken, left, ht, rfl, hrxs, htx, htxp, ?_⟩
        rw [flagAmong_cons, ← tokensBeforeFlag_of_rxToken hu hs hbusy]
        exact hinvt

/-! ### Which tokens a turn of the parser offers (log 5) -/

theorem bytesOfHalf_halfOfBytes (b0 b1 : Byte) : bytesOfHalf (halfOfBytes b0 b1) = [b0, b1] := by
  simp [bytesOfHalf]

/-- What decodes as a frame's offsets 3 on has those bytes (R50 to R52). -/
theorem decodeFrameBody_ok {form : Byte → Half → List Byte → Byte → Instr} {bytes after : List Byte} {i : Instr}
    (h : decodeFrameBody form bytes = .ok (i, after)) :
    ∃ flag code payload c, i = form flag code payload c ∧ bytes = frameBody flag code payload ++ [c] ++ after := by
  unfold decodeFrameBody at h
  split at h
  · next flag c0 c1 n0 n1 more =>
    dsimp only at h
    split at h
    · next c rest hdrop =>
      cases h
      refine ⟨flag, halfOfBytes c0 c1, more.take (halfOfBytes n0 n1).toNat, c, rfl, ?_⟩
      have hlen : (more.take (halfOfBytes n0 n1).toNat).length = (halfOfBytes n0 n1).toNat := by
        have hpos := congrArg List.length hdrop
        rw [List.length_drop, List.length_cons] at hpos
        rw [List.length_take]
        omega
      have hmore : more = more.take (halfOfBytes n0 n1).toNat ++ c :: after := by
        rw [← hdrop, List.take_append_drop]
      rw [frameBody, hlen, BitVec.ofNat_toNat, BitVec.setWidth_eq]
      simp [bodyHead, bytesOfHalf_halfOfBytes, ← hmore]
    · cases h
  · cases h

/-- What decodes as a frame is that frame's bytes and what follows, and the frame's meaning is what RXSEQ makes of those
bytes (R51, R105). -/
theorem decodeFrame_ok {bytes after : List Byte} {i : Instr} (h : decodeFrame bytes = .ok (i, after)) :
    ∃ frame, bytes = frame ++ after ∧ ∀ s, exec i s = receiveFrame frame s := by
  unfold decodeFrame at h
  split at h
  · next b0 b1 b2 more =>
    split at h
    · cases h
    · split at h
      · cases h
      · next h0 h1 =>
        rw [not_not] at h0 h1
        subst h0 h1
        split at h
        · next h2 =>
          subst h2
          obtain ⟨flag, code, payload, c, rfl, rfl⟩ := decodeFrameBody_ok h
          exact ⟨frameBytes dirReq flag code payload c, by simp [frameBytes], fun s => rfl⟩
        · split at h
          · next h2 =>
            subst h2
            obtain ⟨flag, code, payload, c, rfl, rfl⟩ := decodeFrameBody_ok h
            exact ⟨frameBytes dirRsp flag code payload c, by simp [frameBytes], fun s => rfl⟩
          · cases h
  · cases h

theorem leadingBytes_append (ts : List Token) : ∃ rest, ts = (leadingBytes ts).map .byte ++ rest := by
  induction ts with
  | nil => exact ⟨[], rfl⟩
  | cons tok ts ih =>
    cases tok with
    | ioerr e => exact ⟨.ioerr e :: ts, rfl⟩
    | byte b =>
      obtain ⟨rest, h⟩ := ih
      exact ⟨rest, by rw [leadingBytes, List.map_cons, List.cons_append, ← h]⟩

/-- A whole frame at the head of `rxs`: as many tokens as it has bytes, and its meaning (R51, R105). -/
theorem fetchFrame_some {s : State} {i : Instr} {n : Nat} (h : fetchFrame s = some (i, n)) :
    ∃ frame, s.rxs.take n = frame.map .byte ∧ ∀ u, exec i u = receiveFrame frame u := by
  unfold fetchFrame at h
  split at h
  · next after hdec =>
    cases h
    obtain ⟨frame, hbytes, hexec⟩ := decodeFrame_ok hdec
    obtain ⟨rest, hrxs⟩ := leadingBytes_append s.rxs
    refine ⟨frame, ?_, hexec⟩
    have hn : (leadingBytes s.rxs).length - after.length = (frame.map Token.byte).length := by
      rw [hbytes, List.length_append, Nat.add_sub_cancel, List.length_map]
    rw [hn, hrxs, hbytes, List.map_append, List.append_assoc, List.take_left]
  · cases h

/-- RXSEQ's step offers the parser the token at the head of `rxs`. -/
theorem rxStep_eq_rxTokens (s : State) :
    rxStep s = rxTokens Config.hdrEarlyAbort (s.rxs.take 1) { s with rxs := s.rxs.drop 1 } := by
  by_cases hp : s.rx.phase = .idle
  · have htokens := rxTokens_of_idle Config.hdrEarlyAbort (s.rxs.take 1) (s := { s with rxs := s.rxs.drop 1 }) hp
    rw [htokens]
    simp only [List.take_append_drop]
    simp [rxStep, rxStepWith, rxBusy, hp]
  · have hbusy : rxBusy s = true := by simpa [rxBusy] using hp
    rw [rxStep, rxStepWith, if_pos hbusy]
    cases hrxs : s.rxs with
    | nil =>
      have hsame : { s with rxs := [] } = s := by rw [← hrxs]
      exact congrArg Host.Outcome.next hsame.symm
    | cons tok rest =>
      exact (rxTokens_singleton _ tok (s := { s with rxs := rest }) hp).symm

/-- A frame turn offers the parser some number of the tokens at the head of `rxs` (log 5). -/
theorem frameStep_eq_rxTokens (s : State) :
    ∃ n, frameStep s = rxTokens Config.hdrEarlyAbort (s.rxs.take n) { s with rxs := s.rxs.drop n } := by
  unfold frameStep
  split
  · next i n h =>
    obtain ⟨frame, htake, hexec⟩ := fetchFrame_some h
    exact ⟨n, by rw [hexec, htake, receiveFrame]⟩
  · exact ⟨1, rxStep_eq_rxTokens s⟩

/-! ### Commands (R60, R63) -/

theorem decodeNoArg_ok {op : BitVec 4} {arg : Word} {i j : Instr} (h : decodeNoArg op arg i = .ok j) : j = i := by
  unfold decodeNoArg at h
  split at h
  · cases h; rfl
  · cases h

/-- A command word is never a wire frame. -/
theorem decodeCmd_isCommand {w : PortWord} {i : Instr} (h : decodeCmd w = .ok i) : i.isCommand = true := by
  unfold decodeCmd at h
  split at h
  case h_2 =>
    split at h
    · cases h; rfl
    · cases h
  case h_4 => cases h; rfl
  case h_14 => cases h
  all_goals
    rw [decodeNoArg_ok h]
    rfl

/-- What a command may make of the parser's registers (R106, R125, R135). -/
inductive CommandParserEffect (rx : RxRegs) : RxRegs → Prop
  | keeps : CommandParserEffect rx rx
  | starts (hr : rx.result = .none) : CommandParserEffect rx
      { rx with cause := .noCause, errComputed := 0, errReceived := 0, errIo := 0, phase := .hdr0 }
  | releases : CommandParserEffect rx
      { rx with cause := .noCause, errComputed := 0, errReceived := 0, errIo := 0, result := .none }
  | reads (n : Nat) (hr : rx.result = .frame) (hn : rx.cursor.toNat + n ≤ rx.len.toNat) :
      CommandParserEffect rx { rx with cursor := rx.cursor + BitVec.ofNat 16 n }

/-- What a command may make of the builder's registers (R91). -/
inductive CommandBuilderEffect (tx : TxRegs) : TxRegs → Prop
  | keeps : CommandBuilderEffect tx tx
  | builds (code len : Half) : CommandBuilderEffect tx { tx with code := code, len := len, cnt := 0, phase := .hdr0 }

/-- A command writes CRC_ACC, a response, and the parser's and the builder's registers as listed; it never stops. -/
def CommandEffect (s : State) (r : Result) : Prop :=
  ∃ (acc : Byte) (tx : TxRegs) (rx : RxRegs) (rsp : List PortWord),
    r = .next { s with crcAcc := acc, tx := tx, rx := rx, rsp := rsp } ∧
      CommandParserEffect s.rx rx ∧ CommandBuilderEffect s.tx tx

/-- A command that only answers. -/
theorem CommandEffect.of_respond (st : Status) (v : Word) (s : State) : CommandEffect s (.next (respond st v s)) :=
  ⟨_, _, _, _, rfl, .keeps, .keeps⟩

theorem readAtCursor_effect (n : Nat) (s : State) : CommandEffect s (.next (readAtCursor n s)) := by
  rcases readAtCursor_cases n s with ⟨-, h⟩ | ⟨-, -, h⟩ | ⟨hr, hn, h⟩
  · rw [h]
    exact .of_respond _ _ s
  · rw [h]
    exact .of_respond _ _ s
  · rw [h]
    exact ⟨_, _, _, _, rfl, .reads n hr hn, .keeps⟩

theorem exec_command_effect {i : Instr} (hi : i.isCommand = true) (s : State) : CommandEffect s (exec i s) := by
  cases i with
  | frameReq | frameRsp => cases hi
  | crcClear | crcUpdate => exact ⟨_, _, _, _, rfl, .keeps, .keeps⟩
  | crcRead | txStatus | rxStatus => exact .of_respond _ _ s
  | txBuild code len =>
    simp only [exec, execTxBuild]
    split
    · exact .of_respond _ _ s
    · exact ⟨_, _, _, _, rfl, .keeps, .builds code len⟩
  | rxParse =>
    simp only [exec, execRxParse]
    split
    · exact .of_respond _ _ s
    · next h =>
      have hr : s.rx.result = .none := by simp_all
      exact ⟨_, _, _, _, rfl, .starts hr, .keeps⟩
  | rxHead =>
    simp only [exec, execRxHead]
    split
    · exact .of_respond _ _ s
    · exact .of_respond _ _ s
  | rxCursor =>
    simp only [exec, execRxCursor]
    split
    · exact .of_respond _ _ s
    · exact .of_respond _ _ s
  | rxGet8 => exact readAtCursor_effect 1 s
  | rxGet16 => exact readAtCursor_effect 2 s
  | rxGet32 => exact readAtCursor_effect 4 s
  | rxRelease => exact ⟨_, _, _, _, rfl, .releases, .keeps⟩

/-- An illegal word is answered and nothing else (R154, R157). -/
theorem runCommand_effect (w : PortWord) (s : State) : CommandEffect s (runCommand w s) := by
  unfold runCommand
  split
  · next i h => exact exec_command_effect (decodeCmd_isCommand h) s
  · exact .of_respond _ _ s

theorem ParserInv.after_command {f : Byte} {s : State} {rx : RxRegs} (hinv : ParserInv f s)
    (he : CommandParserEffect s.rx rx) : ParserInv f { s with rx := rx } := by
  cases he with
  | keeps => exact hinv
  | starts hr =>
    exact .of_noOutcome ⟨hr, rfl, rfl, rfl, rfl⟩ trivial (earlyHeaderChecked_of_phase nofun nofun) hinv.mem
  | releases =>
    refine .of_noOutcome ⟨rfl, rfl, rfl, rfl, rfl⟩ ?_ hinv.early hinv.mem
    have hcrc := hinv.rxCrc
    cases hp : s.rx.phase <;> simp only [rxCrcTracksBody, hp] at hcrc ⊢
    case idle => exact nofun
    all_goals exact hcrc
  | reads n hr hn =>
    have hp := hinv.idle_of_frame hr
    have hcrc := hinv.rxCrc
    simp only [rxCrcTracksBody, hp] at hcrc
    obtain ⟨hcnt, -, hw, hcrc⟩ := hcrc hr
    have hlen := s.rx.len.isLt
    have hcursor : (s.rx.cursor + BitVec.ofNat 16 n).toNat ≤ s.rx.len.toNat := by
      rw [BitVec.toNat_add, BitVec.toNat_ofNat]
      omega
    refine ⟨hinv.busy, hinv.errors, hinv.named, ?_, hinv.early, hinv.mem⟩
    simp only [rxCrcTracksBody, hp]
    exact fun _ => ⟨hcnt, hcursor, hw, hcrc⟩

/-- The builder's half after a command: a build that has just started has sent nothing (R91). -/
theorem txCrcTracksBody_of_command {p : List Byte} {s t : State} (hinv : txCrcTracksBody p s)
    (he : CommandBuilderEffect s.tx t.tx) (hle : s.txp.length ≤ t.txp.length) :
    txCrcTracksBody (payloadSent p s t) t := by
  generalize htx : t.tx = tx at he
  cases he with
  | keeps => exact txCrcTracksBody_of_tx_eq hinv htx hle
  | builds code len =>
    rw [payloadSent_of_le p hle]
    simp [txCrcTracksBody, htx]

/-! ### The builder's sequencer (R93 to R95) -/

/-- TXSEQ behind the length field, the payload bytes `p` sent: the next byte is the checksum when that is all of them
(R93, R94). -/
theorem txCrcTracksBody_of_payload_progress {p : List Byte} {s : State} (hsent : p.length = s.tx.cnt.toNat)
    (hle : s.tx.cnt.toNat ≤ s.tx.len.toNat) (hp : s.tx.phase = if s.tx.cnt = s.tx.len then .crc else .payload)
    (hcrc : crc8 (bodyHead flagTx s.tx.code s.tx.len ++ p) = s.tx.crc) : txCrcTracksBody p s := by
  by_cases hfull : s.tx.cnt = s.tx.len
  · rw [if_pos hfull] at hp
    simp only [txCrcTracksBody, hp]
    exact ⟨hfull, hfull ▸ hsent, hcrc⟩
  · rw [if_neg hfull] at hp
    simp only [txCrcTracksBody, hp]
    exact ⟨Nat.lt_of_le_of_ne hle fun h => hfull (BitVec.eq_of_toNat_eq h), hsent, hcrc⟩

/-- R93: the last byte of the fixed part, no payload byte being sent yet. -/
theorem txCrcTracksBody_lenHi {p : List Byte} {s : State} (hinv : txCrcTracksBody p s) (hp : s.tx.phase = .lenHi) :
    txCrcTracksBody p (txBody (hiByte s.tx.len) (txAfterLength s) s) := by
  obtain ⟨hnil, hcnt, hcrc⟩ : p = [] ∧ s.tx.cnt = 0 ∧
      s.tx.crc = crc8 [flagTx, loByte s.tx.code, hiByte s.tx.code, loByte s.tx.len] := by
    simpa only [txCrcTracksBody, hp] using hinv
  subst hnil
  refine txCrcTracksBody_of_payload_progress ?_ ?_ ?_ ?_
  · simp [txBody, hcnt]
  · simp [txBody, hcnt]
  · simp only [txBody, emit_tx, txAfterLength, hcnt, eq_comm (a := (0 : Half))]
  · simp only [txBody, emit_tx, hcrc]
    exact crc8_concat [flagTx, _, _, _] _

/-- R94: a payload byte is one more byte sent. -/
theorem txCrcTracksBody_payload {p : List Byte} {s : State} (hinv : txCrcTracksBody p s)
    (hp : s.tx.phase = .payload) (b : Byte) (rest : List Byte) :
    txCrcTracksBody (p ++ [b]) (txPayloadByte b { s with txp := rest }) := by
  obtain ⟨hlt, hsent, hcrc⟩ : s.tx.cnt.toNat < s.tx.len.toNat ∧ p.length = s.tx.cnt.toNat ∧
      crc8 (bodyHead flagTx s.tx.code s.tx.len ++ p) = s.tx.crc := by
    simpa only [txCrcTracksBody, hp] using hinv
  have hcnt := toNat_add_one_of_lt hlt
  refine txCrcTracksBody_of_payload_progress ?_ ?_ rfl ?_
  · simp only [txPayloadByte, emit_tx, hcnt, List.length_append, List.length_singleton, hsent]
  · simp only [txPayloadByte, emit_tx, hcnt]
    exact hlt
  · simp only [txPayloadByte, emit_tx]
    rw [← List.append_assoc, crc8_concat, hcrc]

/-- A byte of TXSEQ that is no payload byte leaves the bytes sent as they were. -/
theorem txCrcTracksBody_of_emitted {p : List Byte} {s t : State} (hp : t.tx.phase ≠ .hdr0) (htxp : t.txp = s.txp)
    (hinv : txCrcTracksBody p t) : txCrcTracksBody (payloadSent p s t) t := by
  rwa [payloadSent_of_le p (le_of_eq (congrArg _ htxp.symm)), if_neg hp]

/-- One step of TXSEQ keeps the builder's half, with the payload byte it may have sent (R93 to R95). -/
theorem txCrcTracksBody_txStep {p : List Byte} {s : State} (hinv : txCrcTracksBody p s) :
    txCrcTracksBody (payloadSent p s (txStep s)) (txStep s) := by
  have hwait : txCrcTracksBody (payloadSent p s s) s := txCrcTracksBody_of_tx_eq hinv rfl (le_refl _)
  unfold txStep
  split
  case isFalse => exact hwait
  unfold txPhaseStep
  cases hp : s.tx.phase with
  | idle => exact hwait
  | hdr0 | hdr1 =>
    simp only [txCrcTracksBody, hp] at hinv
    exact txCrcTracksBody_of_emitted nofun rfl hinv
  | hdr2 =>
    simp only [txCrcTracksBody, hp] at hinv
    obtain ⟨hnil, hcnt⟩ := hinv
    exact txCrcTracksBody_of_emitted nofun rfl ⟨hnil, hcnt, rfl⟩
  | flag | codeLo | codeHi | lenLo =>
    simp only [txCrcTracksBody, hp] at hinv
    obtain ⟨hnil, hcnt, hcrc⟩ := hinv
    refine txCrcTracksBody_of_emitted nofun rfl ⟨hnil, hcnt, ?_⟩
    simp only [txBody, emit_tx, hcrc]
    rfl
  | lenHi =>
    refine txCrcTracksBody_of_emitted ?_ rfl (txCrcTracksBody_lenHi hinv hp)
    simp only [txBody, emit_tx, txAfterLength]
    split <;> simp
  | payload =>
    dsimp only
    split
    · exact hwait
    · next b rest htxp =>
      have hsent : payloadSent p s (txPayloadByte b { s with txp := rest }) = p ++ [b] := by
        have hne : txAfterPayloadByte { s with txp := rest } ≠ .hdr0 := by
          unfold txAfterPayloadByte
          split <;> simp
        simp [payloadSent, txPayloadByte, hne, htxp]
      rw [hsent]
      exact txCrcTracksBody_payload hinv hp b rest
  | crc => exact trivial

end Sys2Proof.Machine

namespace Sys2Proof

open Sys2Proof.Machine

/-! ### One turn -/

theorem MachineInv.after_tokens {h : History} {s : State} (hinv : MachineInv h s) (n : Nat) :
    ∃ t, rxTokens Config.hdrEarlyAbort (s.rxs.take n) { s with rxs := s.rxs.drop n } = .next t ∧
      MachineInv (h.after s t) t := by
  obtain ⟨hp, hb⟩ := (machineInv_iff h s).mp hinv
  have hp' : ParserInv h.flag { s with rxs := s.rxs.drop n } := hp.congr rfl rfl
  obtain ⟨t, taken, left, ht, htake, hrxs, htx, htxp, hpt⟩ := hp'.after_rxTokens (s.rxs.take n)
  have hsplit : s.rxs = taken ++ t.rxs := by
    rw [hrxs, ← List.append_assoc, ← htake, List.take_append_drop]
  refine ⟨t, ht, (machineInv_iff _ _).mpr ⟨?_, txCrcTracksBody_of_tx_eq hb htx (le_of_eq (congrArg _ htxp.symm))⟩⟩
  rw [History.after, flagTaken_of_taken h.flag hsplit]
  exact hpt

/-- After a step that takes no token the parser's half is kept with the flag byte as it was. -/
theorem MachineInv.after_of_halves {h : History} {s t : State} (hle : s.rxs.length ≤ t.rxs.length)
    (hp : ParserInv h.flag t) (hb : txCrcTracksBody (payloadSent h.sent s t) t) : MachineInv (h.after s t) t := by
  refine (machineInv_iff _ _).mpr ⟨?_, hb⟩
  rw [History.after, flagTaken_of_le h.flag hle]
  exact hp

/-- A step that leaves the parser and the builder alone and takes nothing from their streams keeps the invariant. -/
theorem MachineInv.after_untouched {h : History} {s t : State} (hinv : MachineInv h s) (hrx : t.rx = s.rx)
    (he : t.bufEpoch = s.bufEpoch) (htx : t.tx = s.tx) (hrxs : s.rxs.length ≤ t.rxs.length)
    (htxp : s.txp.length ≤ t.txp.length) : MachineInv (h.after s t) t := by
  obtain ⟨hp, hb⟩ := (machineInv_iff h s).mp hinv
  exact .after_of_halves hrxs (hp.congr hrx he) (txCrcTracksBody_of_tx_eq hb htx htxp)

theorem MachineInv.after_cmdStep {h : History} {s : State} (hinv : MachineInv h s) :
    ∃ t, cmdStep s = .next t ∧ MachineInv (h.after s t) t := by
  unfold cmdStep
  split
  · exact ⟨s, rfl, hinv.after_untouched rfl rfl rfl (le_refl _) (le_refl _)⟩
  · next w rest hcmd =>
    obtain ⟨acc, tx, rx, rsp, ht, hrx, htx⟩ := runCommand_effect w { s with cmd := rest }
    obtain ⟨hp, hb⟩ := (machineInv_iff h s).mp hinv
    exact ⟨_, ht, .after_of_halves (le_refl _) ((hp.after_command hrx).congr rfl rfl)
      (txCrcTracksBody_of_command hb htx (le_refl _))⟩

theorem MachineInv.after_txStep {h : History} {s : State} (hinv : MachineInv h s) :
    MachineInv (h.after s (txStep s)) (txStep s) := by
  obtain ⟨hp, hb⟩ := (machineInv_iff h s).mp hinv
  have hkeep : (txStep s).rx = s.rx ∧ (txStep s).bufEpoch = s.bufEpoch ∧ (txStep s).rxs = s.rxs := by
    rcases txStep_cases s with h | ⟨b, last, regs, p, h, -⟩ <;> rw [h] <;> exact ⟨rfl, rfl, rfl⟩
  obtain ⟨hrx, he, hrxs⟩ := hkeep
  exact .after_of_halves (le_of_eq (congrArg _ hrxs.symm)) (hp.congr hrx he) (txCrcTracksBody_txStep hb)

theorem MachineInv.after_envStep {h : History} {s : State} (hinv : MachineInv h s) (e : EnvEvent) :
    MachineInv (h.after s (envStep e s)) (envStep e s) := by
  cases e with
  | reset => exact .after_of_halves (le_refl _) (.of_reset rfl) trivial
  | _ => exact hinv.after_untouched rfl rfl rfl (by simp [envStep]) (by simp [envStep])

/-- Every turn of the machine answers a next state and keeps the invariant. -/
theorem MachineInv.after_takeTurn {h : History} {s : State} (hinv : MachineInv h s) (turn : Turn) :
    ∃ t, takeTurn turn s = .next t ∧ MachineInv (h.after s t) t := by
  match turn with
  | .agent .cmd => exact hinv.after_cmdStep
  | .agent .txseq => exact ⟨_, rfl, hinv.after_txStep⟩
  | .agent .rxseq =>
    obtain ⟨t, ht, hinvt⟩ := hinv.after_tokens 1
    exact ⟨t, (rxStep_eq_rxTokens s).trans ht, hinvt⟩
  | .frame =>
    obtain ⟨n, hn⟩ := frameStep_eq_rxTokens s
    obtain ⟨t, ht, hinvt⟩ := hinv.after_tokens n
    exact ⟨t, hn.trans ht, hinvt⟩
  | .env e => exact ⟨_, rfl, hinv.after_envStep e⟩

/-- Every step answers a next state and keeps the invariant; the agenda and the counter of free choices are no part of it
or of the history (log 3). -/
theorem MachineInv.after_step {h : History} {s : State} (hinv : MachineInv h s) :
    ∃ t, step s = .next t ∧ MachineInv (h.after s t) t := by
  have hnext : MachineInv h (nextTurn s).2 ∧ ∀ t, h.after (nextTurn s).2 t = h.after s t := by
    obtain ⟨hp, hb⟩ := (machineInv_iff h s).mp hinv
    rcases nextTurn_cases s with ⟨turn, rest, -, hn⟩ | ⟨-, hn⟩
    all_goals
      rw [hn]
      exact ⟨(machineInv_iff _ _).mpr ⟨hp.congr rfl rfl, txCrcTracksBody_congr hb rfl⟩, fun _ => rfl⟩
  obtain ⟨hinv', hafter⟩ := hnext
  obtain ⟨t, ht, hinvt⟩ := hinv'.after_takeTurn (nextTurn s).1
  exact ⟨t, ht, hafter t ▸ hinvt⟩

/-! ### Runs, and R28 -/

/-- R28 is what the machine's invariant says of the state alone and of the flag byte. -/
theorem MachineInv.invariantsR28 {h : History} {s : State} (hinv : MachineInv h s) : InvariantsR28 h.flag s := by
  obtain ⟨hp, hb⟩ := (machineInv_iff h s).mp hinv
  have hframe : heldFrameIsValid h.flag s := by
    intro hr
    have hcrc := hinv.rxCrc
    simp only [rxCrcTracksBody, hp.idle_of_frame hr] at hcrc
    obtain ⟨hcnt, hcursor, -, hcrc⟩ := hcrc hr
    exact ⟨hcursor, hcnt, hcrc⟩
  have hrxCount : s.rx.phase = .payload → s.rx.cnt.toNat < s.rx.len.toNat := by
    intro hphase
    have hcrc := hinv.rxCrc
    simp only [rxCrcTracksBody, hphase] at hcrc
    exact hcrc.1
  have htxCount : s.tx.phase = .payload → s.tx.cnt.toNat < s.tx.len.toNat := by
    intro hphase
    simp only [txCrcTracksBody, hphase] at hb
    exact hb.1
  have hcause : causeIsNotReserved s := by
    unfold causeIsNotReserved
    cases s.rx.cause <;> decide
  exact ⟨hinv.busy, hframe, hinv.errors, ⟨hrxCount, htxCount⟩, hcause⟩

/-- A run keeps the invariant, with the history the run leads to. -/
theorem MachineInv.after_runSteps {h : History} {s t : State} {n : Nat} (hinv : MachineInv h s)
    (ht : runSteps n s = .next t) : MachineInv (historyAfter n h s) t := by
  induction n generalizing h s with
  | zero =>
    cases ht
    exact hinv
  | succ n ih =>
    obtain ⟨u, hu, hinvu⟩ := hinv.after_step
    simp only [runSteps, historyAfter, hu] at ht ⊢
    exact ih hinvu ht

/-- The reset state has the invariant, whatever its agenda and the history (R29). -/
theorem machineInv_reset (h : History) (agenda : List Turn) : MachineInv h { State.reset with agenda := agenda } :=
  (machineInv_iff _ _).mpr ⟨.of_reset rfl, trivial⟩

theorem MachineInv.of_reachable {h : History} {s : State} (hs : Reachable h s) : MachineInv h s := by
  obtain ⟨agenda, n, h₀, hrun, rfl⟩ := hs
  exact (machineInv_reset h₀ agenda).after_runSteps hrun

/-! ### The statements of the family -/

/-- Settles O55: at reset no parse and no build runs and no outcome is held. -/
theorem invariantAtReset : Obligations.InvariantAtReset :=
  fun h => machineInv_reset h []

/-- Settles O56, turn by turn: a turn offers tokens to the parser, runs a command, lets TXSEQ step or is the
environment's, and each keeps the parser's and the builder's half of the invariant. -/
theorem stepKeepsInvariant : Obligations.StepKeepsInvariant := by
  intro h s t hinv hstep
  obtain ⟨u, hu, hinvu⟩ := hinv.after_step
  rw [hstep] at hu
  cases hu
  exact hinvu

/-- Settles O57: the invariant keeps RX_CNT below RX_LEN in R_PAYLOAD, so that every byte finds its place. -/
theorem invariantNeverStops : Obligations.InvariantNeverStops := by
  intro h s hinv
  obtain ⟨t, ht, -⟩ := hinv.after_step
  exact ⟨t, ht⟩

/-- Settles O58: reset has the invariant, every step keeps it, and it implies R28. -/
theorem reachableStatesSatisfyR28 : Obligations.ReachableStatesSatisfyR28 :=
  fun _ _ hs => (MachineInv.of_reachable hs).invariantsR28

end Sys2Proof
end

section
/-! SUPPORT. What the statements about the agents and RX_BUF need: which part of the state each sequencer looks at and
writes, so that steps of different agents do not disturb each other (R41, R44, R46), and that a read inside the held
payload sees written bytes only (R37). -/

namespace Sys2Proof.Machine

/-! ### One turn on the agenda -/

theorem takeTurn_cmd {s : State} {w : PortWord} {rest : List PortWord} (h : s.cmd = w :: rest) :
    takeTurn (.agent .cmd) s = runCommand w { s with cmd := rest } := by
  simp only [takeTurn, agentStep, cmdStep, h]

theorem runCommand_of_ok {w : PortWord} {i : Instr} (h : decodeCmd w = .ok i) (s : State) :
    runCommand w s = exec i s := by
  simp only [runCommand, h]

theorem runCommand_of_error {w : PortWord} {e : DecodeError} (h : decodeCmd w = .error e) (s : State) :
    runCommand w s = .next (refuseCommand .illegalCommand s) := by
  simp only [runCommand, h]

/-- With the agenda used up, the turn is the inside agent's that the arbiter names (U9). -/
theorem step_of_agenda_nil {s : State} (h : s.agenda = []) :
    step s = agentStep (Config.arbiter s.choices) { s with choices := s.choices + 1 } := by
  simp only [step, nextTurn, h, takeTurn]

/-! ### An agent with no enabled step -/

theorem txStep_of_disabled {s : State} (h : txEnabled s = false) : txStep s = s := by
  unfold txStep
  split
  case isFalse => rfl
  case isTrue hready =>
    unfold txPhaseStep
    cases hp : s.tx.phase with
    | idle => rfl
    | payload =>
      have htxp : s.txp = [] := by simpa [txEnabled, txBusy, hp, hready] using h
      simp only [htxp]
    | _ => simp [txEnabled, txBusy, hp, hready] at h

theorem rxStep_of_disabled {s : State} (h : rxEnabled s = false) : rxStep s = .next s := by
  rcases rxStepWith_cases Config.hdrEarlyAbort s with ⟨-, hwait⟩ | ⟨tok, rest, hbusy, hrxs, -⟩
  · exact hwait
  · simp [rxEnabled, hbusy, hrxs] at h

theorem cmdStep_of_disabled {s : State} (h : cmdEnabled s = false) : cmdStep s = .next s := by
  have hcmd : s.cmd = [] := by simpa [cmdEnabled] using h
  simp only [cmdStep, hcmd]

theorem agents_disabled_iff (s : State) :
    (∀ a, agentEnabled a s = false) ↔ cmdEnabled s = false ∧ txEnabled s = false ∧ rxEnabled s = false :=
  ⟨fun h => ⟨h .cmd, h .txseq, h .rxseq⟩, fun ⟨hc, ht, hr⟩ a => by cases a <;> assumption⟩

/-- R193 agent by agent, while SINK is ready. -/
theorem quiescent_eq {s : State} (h : s.sinkReady = true) :
    quiescent s = (!cmdEnabled s && !txEnabled s && !rxEnabled s) := by
  simp [quiescent, cmdEnabled, txEnabled, rxEnabled, h, bne]

/-! ### What RXSEQ does not look at and does not write (R41, R44, R170) -/

/-- An outcome with its next state changed by `f`; a stop stays. -/
def onNext (f : State → State) : Result → Result
  | .next s => .next (f s)
  | .fault x => .fault x
  | .refused x => .refused x

/-- The state `u` with the parser's registers and stream of `s`, which are all that RXSEQ has to do with. -/
def withParserOf (u s : State) : State := { u with rx := s.rx, rxs := s.rxs }

section Parser

variable (u s : State)

theorem rxHdr0_withParserOf (early : Bool) (b : Byte) :
    rxHdr0 early b (withParserOf u s) = withParserOf u (rxHdr0 early b s) := by
  unfold rxHdr0
  rw [apply_ite (withParserOf u)]
  rfl

theorem rxHdr1_withParserOf (early : Bool) (b : Byte) :
    rxHdr1 early b (withParserOf u s) = withParserOf u (rxHdr1 early b s) := by
  unfold rxHdr1
  rw [apply_ite (withParserOf u)]
  rfl

theorem rxHdr2_withParserOf (b : Byte) : rxHdr2 b (withParserOf u s) = withParserOf u (rxHdr2 b s) := by
  unfold rxHdr2
  rw [apply_ite (withParserOf u), apply_ite (withParserOf u), apply_ite (withParserOf u)]
  rfl

theorem rxChecksum_withParserOf (b : Byte) :
    rxChecksum b (withParserOf u s) = withParserOf u (rxChecksum b s) := by
  unfold rxChecksum
  rw [apply_ite (withParserOf u)]
  rfl

theorem rxPayload_withParserOf (b : Byte) :
    rxPayload b (withParserOf u s) = onNext (withParserOf u) (rxPayload b s) := by
  have hstore : storePayloadByte b (withParserOf u s) = storePayloadByte b s := rfl
  simp only [rxPayload, hstore]
  cases storePayloadByte b s <;> rfl

theorem rxToken_withParserOf (early : Bool) (tok : Token) :
    rxToken early tok (withParserOf u s) = onNext (withParserOf u) (rxToken early tok s) := by
  cases tok with
  | ioerr e => rfl
  | byte b =>
    have hphase : (withParserOf u s).rx.phase = s.rx.phase := rfl
    simp only [rxToken, rxByte, hphase]
    cases s.rx.phase with
    | hdr0 => exact congrArg _ (rxHdr0_withParserOf u s early b)
    | hdr1 => exact congrArg _ (rxHdr1_withParserOf u s early b)
    | hdr2 => exact congrArg _ (rxHdr2_withParserOf u s b)
    | payload => exact rxPayload_withParserOf u s b
    | crc => exact congrArg _ (rxChecksum_withParserOf u s b)
    | idle | flag | codeLo | codeHi | lenLo | lenHi => rfl

theorem rxTokens_withParserOf (early : Bool) (ts : List Token) :
    rxTokens early ts (withParserOf u s) = onNext (withParserOf u) (rxTokens early ts s) := by
  induction ts generalizing s with
  | nil => rfl
  | cons tok ts ih =>
    by_cases hs : s.rx.phase = .idle
    · rw [rxTokens_of_idle early _ hs, rxTokens_of_idle early _ (s := withParserOf u s) hs]
      rfl
    · have hbusy : rxBusy s = true := by simpa [rxBusy] using hs
      have hbusy' : rxBusy (withParserOf u s) = true := hbusy
      simp only [rxTokens, if_pos hbusy, if_pos hbusy', rxToken_withParserOf]
      cases rxToken early tok s with
      | next t => exact ih t
      | fault | refused => rfl

/-- RXSEQ looks at the parser's registers and stream only. -/
theorem rxStep_withParserOf : rxStep (withParserOf u s) = onNext (withParserOf u) (rxStep s) := by
  rw [rxStep_eq_rxTokens, rxStep_eq_rxTokens]
  exact rxTokens_withParserOf u { s with rxs := s.rxs.drop 1 } _ _

end Parser

/-- Tokens offered to the parser change its registers and stream only. -/
theorem rxTokens_frame {early : Bool} {ts : List Token} {s t : State} (ht : rxTokens early ts s = .next t) :
    t = withParserOf s t := by
  have h : rxTokens early ts s = onNext (withParserOf s) (rxTokens early ts s) := rxTokens_withParserOf s s early ts
  rw [ht] at h
  exact Host.Outcome.next.inj h

theorem rxStep_frame {s t : State} (ht : rxStep s = .next t) : t = withParserOf s t := by
  rw [rxStep_eq_rxTokens] at ht
  exact (rxTokens_frame ht :)

theorem frameStep_frame {s t : State} (ht : frameStep s = .next t) : t = withParserOf s t := by
  obtain ⟨n, hn⟩ := frameStep_eq_rxTokens s
  rw [hn] at ht
  exact (rxTokens_frame ht :)

/-! ### What TXSEQ does not look at and does not write (R41, R44, R170) -/

/-- The state `u` with the builder's registers and streams and SINK's readiness of `s`, which are all that TXSEQ has to
do with. -/
def withBuilderOf (u s : State) : State :=
  { u with tx := s.tx, txp := s.txp, txs := s.txs, sinkReady := s.sinkReady }

theorem txPhaseStep_withBuilderOf (u s : State) :
    txPhaseStep (withBuilderOf u s) = withBuilderOf u (txPhaseStep s) := by
  have htx : (withBuilderOf u s).tx = s.tx := rfl
  have htxp : (withBuilderOf u s).txp = s.txp := rfl
  simp only [txPhaseStep, htx, htxp]
  cases s.tx.phase with
  | payload => cases s.txp <;> rfl
  | _ => rfl

/-- TXSEQ looks at the builder's registers and streams and at SINK only. -/
theorem txStep_withBuilderOf (u s : State) : txStep (withBuilderOf u s) = withBuilderOf u (txStep s) := by
  unfold txStep
  rw [apply_ite (withBuilderOf u), txPhaseStep_withBuilderOf]
  rfl

theorem txStep_frame (s : State) : txStep s = withBuilderOf s (txStep s) :=
  txStep_withBuilderOf s s

/-! ### The order of the two sequencers (R44) -/

/-- A step of RXSEQ after a step of TXSEQ leads where the two lead in the other order; where RXSEQ stops, it stops in
both. -/
theorem rxStep_txStep (s : State) : rxStep (txStep s) = onNext txStep (rxStep s) := by
  have hsame : txStep s = withParserOf (txStep s) s := by
    rw [txStep_frame]
    rfl
  rw [hsame, rxStep_withParserOf]
  cases ht : rxStep s with
  | fault | refused => rfl
  | next t =>
    have hframe := rxStep_frame ht
    have hstep : txStep t = withBuilderOf t (txStep s) := by
      rw [← txStep_withBuilderOf, hframe]
      rfl
    rw [onNext, onNext, hstep, txStep_frame, hframe]
    rfl

/-- The agenda is nothing to TXSEQ. -/
theorem txStep_setAgenda (s : State) (later : List Turn) :
    txStep { s with agenda := later } = { txStep s with agenda := later } := by
  rw [txStep_frame s]
  exact txStep_withBuilderOf { s with agenda := later } s

/-- The agenda is nothing to RXSEQ. -/
theorem rxStep_setAgenda (s : State) (later : List Turn) :
    rxStep { s with agenda := later } = onNext (fun t => { t with agenda := later }) (rxStep s) := by
  have h : rxStep { s with agenda := later } = onNext (withParserOf { s with agenda := later }) (rxStep s) :=
    rxStep_withParserOf { s with agenda := later } s
  rw [h]
  cases ht : rxStep s with
  | fault | refused => rfl
  | next t =>
    rw [onNext, onNext, rxStep_frame ht]
    rfl

theorem runSteps_one (s : State) : runSteps 1 s = step s := by
  simp only [runSteps]
  cases step s <;> rfl

theorem runSteps_txseq_rxseq (s : State) (later : List Turn) :
    runSteps 2 { s with agenda := .agent .txseq :: .agent .rxseq :: later } =
      rxStep (txStep { s with agenda := later }) := by
  calc runSteps 2 { s with agenda := .agent .txseq :: .agent .rxseq :: later }
      = step (txStep { s with agenda := .agent .rxseq :: later }) := runSteps_one _
    _ = rxStep { txStep s with agenda := later } := by
      rw [txStep_setAgenda]
      rfl
    _ = rxStep (txStep { s with agenda := later }) := congrArg rxStep (txStep_setAgenda s later).symm

theorem runSteps_rxseq_txseq (s : State) (later : List Turn) :
    runSteps 2 { s with agenda := .agent .rxseq :: .agent .txseq :: later } =
      onNext txStep (rxStep { s with agenda := later }) := by
  have hfirst : step { s with agenda := .agent .rxseq :: .agent .txseq :: later } =
      onNext (fun t => { t with agenda := .agent .txseq :: later }) (rxStep s) := rxStep_setAgenda s _
  rw [rxStep_setAgenda, runSteps, hfirst]
  cases rxStep s <;> rfl

/-! ### CMD leaves a builder that is busy alone (R46, R91) -/

theorem execTxBuild_of_busy (code len : Half) {s : State} (h : s.tx.phase ≠ .idle) :
    execTxBuild code len s = .next (refuseCommand .busy s) := by
  simp [execTxBuild, txBusy, h]

@[simp] theorem readAtCursor_tx (n : Nat) (s : State) : (readAtCursor n s).tx = s.tx := by
  rcases readAtCursor_cases n s with ⟨-, h⟩ | ⟨-, -, h⟩ | ⟨-, -, h⟩ <;> rw [h] <;> rfl

/-- TX.BUILD is the only command that writes the builder's registers, and in a build it is refused. -/
theorem exec_command_tx_of_busy {i : Instr} {s t : State} (hi : i.isCommand = true) (hs : s.tx.phase ≠ .idle)
    (ht : exec i s = .next t) : t.tx = s.tx := by
  cases i with
  | frameReq | frameRsp => cases hi
  | txBuild code len =>
    rw [exec, execTxBuild_of_busy code len hs] at ht
    cases ht
    rfl
  | rxGet8 | rxGet16 | rxGet32 =>
    cases ht
    exact readAtCursor_tx _ s
  | rxParse | rxHead | rxCursor =>
    simp only [exec, execRxParse, execRxHead, execRxCursor] at ht
    split at ht <;> cases ht <;> rfl
  | crcClear | crcUpdate | crcRead | txStatus | rxStatus | rxRelease =>
    cases ht
    rfl

theorem runCommand_tx_of_busy {w : PortWord} {s t : State} (hs : s.tx.phase ≠ .idle)
    (ht : runCommand w s = .next t) : t.tx = s.tx := by
  cases hw : decodeCmd w with
  | ok i =>
    rw [runCommand_of_ok hw] at ht
    exact exec_command_tx_of_busy (decodeCmd_isCommand hw) hs ht
  | error e =>
    rw [runCommand_of_error hw] at ht
    cases ht
    rfl

theorem runCommand_keeps_txStreams {w : PortWord} {s t : State} (ht : runCommand w s = .next t) :
    t.txs = s.txs ∧ t.txp = s.txp := by
  obtain ⟨acc, tx, rx, rsp, h, -, -⟩ := runCommand_effect w s
  rw [ht] at h
  cases h
  exact ⟨rfl, rfl⟩

theorem cmdStep_keeps_busy_builder {s t : State} (hs : s.tx.phase ≠ .idle) (ht : cmdStep s = .next t) :
    t.tx = s.tx ∧ t.txs = s.txs ∧ t.txp = s.txp := by
  unfold cmdStep at ht
  split at ht
  · cases ht
    exact ⟨rfl, rfl, rfl⟩
  · next w rest hcmd =>
    exact ⟨runCommand_tx_of_busy (s := { s with cmd := rest }) hs ht, (runCommand_keeps_txStreams ht :)⟩

/-! ### What a command sees of RX_BUF (R37) -/

/-- Other free contents of RX_BUF selected (log 2). -/
def setEpoch (epoch : Nat) (s : State) : State := { s with bufEpoch := epoch }

/-- Written bytes are the same whatever the free contents. -/
theorem memRead_setEpoch {s : State} {len a n : Nat} (epoch : Nat) (hw : bytesWritten s len) (hn : a + n ≤ len) :
    memRead (setEpoch epoch s) a n = memRead s a n := by
  have hbytes : (setEpoch epoch s).bufBytes a n = s.bufBytes a n := by
    refine List.map_congr_left fun k hk => ?_
    have hk := List.mem_range.mp hk
    obtain ⟨b, hb⟩ := Option.isSome_iff_exists.mp (hw (a + k) (by omega))
    rw [State.bufByte_of_read hb, State.bufByte_of_read (s := setEpoch epoch s) hb]
  rw [memRead, memRead, hbytes]

/-- All bytes of a held payload have been written (R37). -/
theorem ParserInv.bytesWritten_of_frame {f : Byte} {s : State} (hinv : ParserInv f s) (hr : s.rx.result = .frame) :
    bytesWritten s s.rx.len.toNat := by
  have hcrc := hinv.rxCrc
  simp only [rxCrcTracksBody, hinv.idle_of_frame hr] at hcrc
  obtain ⟨-, -, hw, -⟩ := hcrc hr
  exact hw

theorem readAtCursor_of_noFrame {n : Nat} {s : State} (hr : s.rx.result ≠ .frame) :
    readAtCursor n s = refuseCommand .noFrame s := by
  simp [readAtCursor, hr]

theorem readAtCursor_of_short {n : Nat} {s : State} (hr : s.rx.result = .frame)
    (hn : s.rx.len.toNat < s.rx.cursor.toNat + n) : readAtCursor n s = refuseCommand .truncatedPayload s := by
  simp [readAtCursor, tooFewBytes, hr, hn]

theorem readAtCursor_of_fits {n : Nat} {s : State} (hr : s.rx.result = .frame)
    (hn : s.rx.cursor.toNat + n ≤ s.rx.len.toNat) :
    readAtCursor n s = respond .ok (memRead s s.rx.cursor.toNat n)
      { s with rx := { s.rx with cursor := s.rx.cursor + BitVec.ofNat 16 n } } := by
  simp [readAtCursor, tooFewBytes, hr, Nat.not_lt.mpr hn]

/-- A read answers from inside the held payload or not at all. -/
theorem readAtCursor_setEpoch {f : Byte} {s : State} (hinv : ParserInv f s) (epoch n : Nat) :
    readAtCursor n (setEpoch epoch s) = setEpoch epoch (readAtCursor n s) := by
  by_cases hr : s.rx.result = .frame
  · by_cases hn : s.rx.cursor.toNat + n ≤ s.rx.len.toNat
    · have hvalue := memRead_setEpoch epoch (hinv.bytesWritten_of_frame hr) hn
      rw [readAtCursor_of_fits hr hn, readAtCursor_of_fits (s := setEpoch epoch s) hr hn, ← hvalue]
      rfl
    · rw [readAtCursor_of_short hr (Nat.not_le.mp hn),
        readAtCursor_of_short (s := setEpoch epoch s) hr (Nat.not_le.mp hn)]
      rfl
  · rw [readAtCursor_of_noFrame hr, readAtCursor_of_noFrame (s := setEpoch epoch s) hr]
    rfl

/-- A command looks at RX_BUF only where the parse of the held frame wrote it. -/
theorem exec_command_setEpoch {f : Byte} {s : State} {i : Instr} (hinv : ParserInv f s) (hi : i.isCommand = true)
    (epoch : Nat) : exec i (setEpoch epoch s) = onNext (setEpoch epoch) (exec i s) := by
  cases i with
  | frameReq | frameRsp => cases hi
  | rxGet8 => exact congrArg _ (readAtCursor_setEpoch hinv epoch 1)
  | rxGet16 => exact congrArg _ (readAtCursor_setEpoch hinv epoch 2)
  | rxGet32 => exact congrArg _ (readAtCursor_setEpoch hinv epoch 4)
  | txBuild | rxParse | rxHead | rxCursor =>
    simp only [exec, execTxBuild, execRxParse, execRxHead, execRxCursor, apply_ite (onNext (setEpoch epoch))]
    rfl
  | crcClear | crcUpdate | crcRead | txStatus | rxStatus | rxRelease => rfl

end Sys2Proof.Machine

namespace Sys2Proof

open Sys2Proof.Machine

/-! ### The statements of the family -/

/-- Settles O50: each sequencer looks at and writes its own half of the state only. -/
theorem directionsIndependent : Obligations.DirectionsIndependent := by
  intro s later
  rw [runSteps_txseq_rxseq, runSteps_rxseq_txseq, rxStep_txStep]

/-- Settles O21, turn by turn: CMD refuses TX.BUILD while the builder is busy, RXSEQ writes the parser's part only, and
of the events but reset only SINK's and HOST's payload reach the builder's streams. -/
theorem buildInProgressUndisturbed : Obligations.BuildInProgressUndisturbed := by
  intro s t turn hs hturn hreset ht
  match turn with
  | .agent .txseq => exact absurd rfl hturn
  | .agent .cmd =>
    obtain ⟨htx, htxs, htxp⟩ := cmdStep_keeps_busy_builder hs ht
    exact ⟨htx, .inl htxs, .inl htxp⟩
  | .agent .rxseq =>
    rw [rxStep_frame ht]
    exact ⟨rfl, .inl rfl, .inl rfl⟩
  | .frame =>
    rw [frameStep_frame ht]
    exact ⟨rfl, .inl rfl, .inl rfl⟩
  | .env e =>
    cases ht
    cases e with
    | reset => exact absurd rfl hreset
    | sinkTake => exact ⟨rfl, .inr ⟨rfl, rfl⟩, .inl rfl⟩
    | hostPayload b => exact ⟨rfl, .inl rfl, .inr ⟨b, rfl, rfl⟩⟩
    | hostCommand | hostTakeResponse | sourceToken | sinkReady => exact ⟨rfl, .inl rfl, .inl rfl⟩

/-- Settles O44: only the reads at the cursor look at RX_BUF, inside the held payload, whose bytes are all written. -/
theorem unwrittenBytesNeverObserved : Obligations.UnwrittenBytesNeverObserved := by
  intro h s i epoch hinv hi
  obtain ⟨hp, -⟩ := (machineInv_iff h s).mp hinv
  obtain ⟨acc, tx, rx, rsp, ht, -, -⟩ := exec_command_effect hi s
  have hepoch := exec_command_setEpoch hp hi epoch
  rw [ht] at hepoch
  exact ⟨_, ht, hepoch⟩

/-- Settles O6: CMD's turn is its one step, which decodes the word it removes. -/
theorem stepRunsDecodedCommand : Obligations.StepRunsDecodedCommand := by
  intro s w rest later hagenda hcmd
  have hstep : step s = runCommand w { s with agenda := later, cmd := rest } :=
    (step_agenda hagenda).trans (takeTurn_cmd (s := { s with agenda := later }) hcmd)
  rw [hstep]
  exact ⟨fun i hw => runCommand_of_ok hw _, fun e hw => runCommand_of_error hw _⟩

/-- Settles O8: a turn on the agenda is its agent's step, and an empty agenda asks the arbiter. -/
theorem stepGivesTurnToAgent : Obligations.StepGivesTurnToAgent := fun _ _ =>
  ⟨step_agenda, step_agenda, fun _ => step_agenda, fun hagenda => ⟨_, step_of_agenda_nil hagenda⟩⟩

/-- Settles O52: each agent waits where it is not enabled, and R193's condition is that of the three agents together. -/
theorem waitingChangesNothing : Obligations.WaitingChangesNothing := by
  refine ⟨fun a s ha => ?_, fun s hready => ?_⟩
  · cases a with
    | cmd => exact cmdStep_of_disabled ha
    | txseq => exact congrArg _ (txStep_of_disabled ha)
    | rxseq => exact rxStep_of_disabled ha
  · rw [agents_disabled_iff, quiescent_eq hready]
    simp [and_assoc]

end Sys2Proof
end

section
/-! SUPPORT. What the statements about the encoding need: how the fields of a command word are taken apart, which words
decode to what, the table's rows as an op digit and must-be-0 bits, and frames at the head of a byte sequence. -/

namespace Sys2Proof

open Sys2Proof.Machine

/-! ### The fields of a command word (R59) -/

@[simp] theorem cmdOp_cmdWordOf (op : BitVec 4) (arg : Word) : cmdOp (cmdWordOf op arg) = op :=
  BitVec.extractLsb'_append_eq_left

@[simp] theorem cmdArg_cmdWordOf (op : BitVec 4) (arg : Word) : cmdArg (cmdWordOf op arg) = arg :=
  BitVec.extractLsb'_append_eq_right

/-- A command word is its op digit and its `arg`. -/
theorem cmdWordOf_op_arg (w : PortWord) : cmdWordOf (cmdOp w) (cmdArg w) = w :=
  BitVec.extractLsb'_append_extractLsb' (w := 4) (len := 32)

theorem cmdWordOf_of_fields {w : PortWord} {op : BitVec 4} {arg : Word} (hop : cmdOp w = op) (harg : cmdArg w = arg) :
    cmdWordOf op arg = w := by
  rw [← hop, ← harg, cmdWordOf_op_arg]

theorem cmdWordOf_inj {op op' : BitVec 4} {arg arg' : Word} :
    cmdWordOf op arg = cmdWordOf op' arg' ↔ op = op' ∧ arg = arg' := by
  refine ⟨fun h => ⟨?_, ?_⟩, fun ⟨hop, harg⟩ => by rw [hop, harg]⟩
  · simpa using congrArg cmdOp h
  · simpa using congrArg cmdArg h

@[simp] theorem argByte_append (z : BitVec 24) (b : Byte) : argByte (z ++ b) = b :=
  BitVec.extractLsb'_append_eq_right

@[simp] theorem argCode_append (len code : Half) : argCode (len ++ code) = code :=
  BitVec.extractLsb'_append_eq_right

@[simp] theorem argLen_append (len code : Half) : argLen (len ++ code) = len :=
  BitVec.extractLsb'_append_eq_left

theorem argByte_cmdArg (w : PortWord) : argByte (cmdArg w) = w.extractLsb' 0 8 :=
  BitVec.extractLsb'_extractLsb'_of_le (by omega)

theorem argCode_cmdArg (w : PortWord) : argCode (cmdArg w) = w.extractLsb' 0 16 :=
  BitVec.extractLsb'_extractLsb'_of_le (by omega)

theorem argLen_cmdArg (w : PortWord) : argLen (cmdArg w) = w.extractLsb' 16 16 :=
  BitVec.extractLsb'_extractLsb'_of_le (by omega)

/-- R63: CRC.UPDATE's `arg` is its operand below 24 bits that must be 0. -/
theorem arg_eq_of_update {arg : Word} (h : arg.extractLsb' 8 24 = 0) : arg = (0 : BitVec 24) ++ argByte arg := by
  rw [← h]
  exact (BitVec.extractLsb'_append_extractLsb' (w := 24) (len := 8)).symm

/-- R63: TX.BUILD's `arg` is its two operands. -/
theorem arg_eq_of_build (arg : Word) : arg = argLen arg ++ argCode arg :=
  (BitVec.extractLsb'_append_extractLsb' (w := 16) (len := 16)).symm

/-! ### Which words decode to what (R60, R63) -/

/-- The operation with no operand that an op digit stands for (R62, R63). -/
def noOperandInstr : BitVec 4 → Option Instr
  | 0x1#4 => some .crcClear
  | 0x3#4 => some .crcRead
  | 0x5#4 => some .txStatus
  | 0x6#4 => some .rxParse
  | 0x7#4 => some .rxStatus
  | 0x8#4 => some .rxHead
  | 0x9#4 => some .rxGet8
  | 0xA#4 => some .rxGet16
  | 0xB#4 => some .rxGet32
  | 0xC#4 => some .rxCursor
  | 0xD#4 => some .rxRelease
  | _ => none

theorem decodeNoArg_eq_ok_iff (op : BitVec 4) (arg : Word) (i j : Instr) :
    decodeNoArg op arg i = .ok j ↔ i = j ∧ arg = 0 := by
  unfold decodeNoArg
  split
  · next h => simp [h]
  · next h => simpa using fun _ => h

/-- A legal word has one of three forms: no operand and `arg` all 0, CRC.UPDATE's byte, or TX.BUILD's two operands. -/
theorem decodeCmd_eq_ok_iff (w : PortWord) (i : Instr) :
    decodeCmd w = .ok i ↔
      (noOperandInstr (cmdOp w) = some i ∧ cmdArg w = 0) ∨
        (cmdOp w = 0x2#4 ∧ (cmdArg w).extractLsb' 8 24 = 0 ∧ .crcUpdate (argByte (cmdArg w)) = i) ∨
        (cmdOp w = 0x4#4 ∧ .txBuild (argCode (cmdArg w)) (argLen (cmdArg w)) = i) := by
  unfold decodeCmd
  split
  case h_2 hop =>
    split
    · next h => simp [hop, noOperandInstr, h]
    · next h => simpa [hop, noOperandInstr] using fun hzero => absurd hzero h
  case h_4 hop => simp [hop, noOperandInstr]
  case h_14 => simp_all [noOperandInstr]
  all_goals
    next hop => simp [hop, noOperandInstr, decodeNoArg_eq_ok_iff]

theorem encode_of_noOperandInstr {op : BitVec 4} {i : Instr} (h : noOperandInstr op = some i) :
    encode i = .cmdWord (cmdWordOf op 0) := by
  unfold noOperandInstr at h
  split at h
  case h_12 => cases h
  all_goals
    cases h
    rfl

/-- What a word decodes to has that word as its encoding. -/
theorem encode_of_decodeCmd {w : PortWord} {i : Instr} (h : decodeCmd w = .ok i) : encode i = .cmdWord w := by
  rcases (decodeCmd_eq_ok_iff w i).mp h with ⟨hi, harg⟩ | ⟨hop, hzero, rfl⟩ | ⟨hop, rfl⟩
  · exact (encode_of_noOperandInstr hi).trans (congrArg _ (cmdWordOf_of_fields rfl harg))
  · exact congrArg _ (cmdWordOf_of_fields hop (arg_eq_of_update hzero))
  · exact congrArg _ (cmdWordOf_of_fields hop (arg_eq_of_build _))

theorem decodeCmd_cmdWordOf_update (b : Byte) :
    decodeCmd (cmdWordOf 0x2 ((0 : BitVec 24) ++ b)) = .ok (.crcUpdate b) := by
  refine (decodeCmd_eq_ok_iff _ _).mpr (.inr (.inl ?_))
  rw [cmdOp_cmdWordOf, cmdArg_cmdWordOf, argByte_append]
  exact ⟨rfl, BitVec.extractLsb'_append_eq_left, rfl⟩

theorem decodeCmd_cmdWordOf_build (code len : Half) :
    decodeCmd (cmdWordOf 0x4 (len ++ code)) = .ok (.txBuild code len) := by
  refine (decodeCmd_eq_ok_iff _ _).mpr (.inr (.inr ?_))
  rw [cmdOp_cmdWordOf, cmdArg_cmdWordOf, argCode_append, argLen_append]
  exact ⟨rfl, rfl⟩

theorem operand_of_update {w : PortWord} {b : Byte} (h : decodeCmd w = .ok (.crcUpdate b)) :
    b = w.extractLsb' 0 8 := by
  cases encode_of_decodeCmd h
  rw [← argByte_cmdArg, cmdArg_cmdWordOf, argByte_append]

theorem operands_of_build {w : PortWord} {code len : Half} (h : decodeCmd w = .ok (.txBuild code len)) :
    code = w.extractLsb' 0 16 ∧ len = w.extractLsb' 16 16 := by
  cases encode_of_decodeCmd h
  rw [← argCode_cmdArg, ← argLen_cmdArg, cmdArg_cmdWordOf, argCode_append, argLen_append]
  exact ⟨rfl, rfl⟩

/-- The encoding of a command decodes to it. -/
theorem decode_encode_command {i : Instr} (hi : i.isCommand = true) : decode (encode i) = .ok i := by
  cases i with
  | frameReq | frameRsp => cases hi
  | crcUpdate b => exact decodeCmd_cmdWordOf_update b
  | txBuild code len => exact decodeCmd_cmdWordOf_build code len
  | crcClear | crcRead | txStatus | rxParse | rxStatus | rxHead | rxGet8 | rxGet16 | rxGet32 | rxCursor | rxRelease =>
    decide

/-! ### Which words are reserved (R64) -/

theorem decodeCmd_error_iff_not_ok (w : PortWord) :
    (∃ e, decodeCmd w = .error e) ↔ ¬ ∃ i, decodeCmd w = .ok i := by
  cases decodeCmd w <;> simp

/-- The op digits of R62, by the form of their `arg`. -/
theorem noOperandInstr_isSome_iff : ∀ op : BitVec 4, (noOperandInstr op).isSome = true ↔
    op ∈ [0x1#4, 0x3#4, 0x5#4, 0x6#4, 0x7#4, 0x8#4, 0x9#4, 0xA#4, 0xB#4, 0xC#4, 0xD#4] := by
  decide

/-- Every op digit is reserved, CRC.UPDATE's, TX.BUILD's or that of an operation with no operand. -/
theorem op_reserved_iff : ∀ op : BitVec 4, op ∈ [0x0#4, 0xE#4, 0xF#4] ↔
    op ≠ 0x2#4 ∧ op ≠ 0x4#4 ∧ (noOperandInstr op).isSome = false := by
  decide

theorem decodeCmd_ok_iff (w : PortWord) : (∃ i, decodeCmd w = .ok i) ↔
    ((noOperandInstr (cmdOp w)).isSome = true ∧ cmdArg w = 0) ∨
      (cmdOp w = 0x2#4 ∧ (cmdArg w).extractLsb' 8 24 = 0) ∨ cmdOp w = 0x4#4 := by
  simp only [decodeCmd_eq_ok_iff, exists_or, exists_and_left, exists_and_right, exists_eq', and_true,
    Option.isSome_iff_exists]

theorem decodeCmd_error_iff (w : PortWord) : (∃ e, decodeCmd w = .error e) ↔
    cmdOp w ∈ [0x0#4, 0xE#4, 0xF#4] ∨
      (cmdOp w = 0x2#4 ∧ (cmdArg w).extractLsb' 8 24 ≠ 0) ∨
      ((noOperandInstr (cmdOp w)).isSome = true ∧ cmdArg w ≠ 0) := by
  rw [decodeCmd_error_iff_not_ok, decodeCmd_ok_iff, op_reserved_iff]
  by_cases hupdate : cmdOp w = 0x2#4
  · simp [hupdate, noOperandInstr]
  · by_cases hbuild : cmdOp w = 0x4#4
    · simp [hbuild, noOperandInstr]
    · cases (noOperandInstr (cmdOp w)).isSome <;> simp [hupdate, hbuild]

/-! ### The rows of the table (R63) -/

/-- The op digit of a row. -/
def TableRow.op (r : TableRow) : BitVec 4 := BitVec.ofNat 4 (r.matchBits / 2 ^ 32)

/-- The bits of `arg` that a row wants to be 0. -/
def TableRow.zeroBits (r : TableRow) : Word := BitVec.ofNat 32 r.maskBits

/-- Every row of R63 compares the op digit and asks for zeros, and nothing else. -/
theorem cmdRows_bits : ∀ r ∈ cmdRows,
    r.matchBits = (cmdWordOf r.op 0).toNat ∧ r.maskBits = (cmdWordOf 0xF#4 r.zeroBits).toNat := by
  decide

/-- R63: the `op` digits differ. -/
theorem cmdRows_op_inj : ∀ r ∈ cmdRows, ∀ r' ∈ cmdRows, r.op = r'.op → r = r' := by
  decide

/-- A row belongs to an operation with no operand, to CRC.UPDATE or to TX.BUILD. -/
theorem cmdRows_forms : ∀ r ∈ cmdRows,
    ((noOperandInstr r.op).isSome = true ∧ r.zeroBits = BitVec.allOnes 32) ∨
      (r.op = 0x2#4 ∧ r.zeroBits = 0xFFFFFF00#32) ∨ r.op = 0x4#4 := by
  decide

/-- What it takes to select a row: its op digit, and zeros where it asks for them. -/
theorem TableRow.selects_iff {r : TableRow} (hr : r ∈ cmdRows) (w : PortWord) :
    r.selects w.toNat = true ↔ cmdOp w = r.op ∧ cmdArg w &&& r.zeroBits = 0 := by
  obtain ⟨hmatch, hmask⟩ := cmdRows_bits r hr
  have hand : w &&& cmdWordOf 0xF#4 r.zeroBits = cmdWordOf (cmdOp w) (cmdArg w &&& r.zeroBits) := by
    conv_lhs => rw [← cmdWordOf_op_arg w]
    exact BitVec.and_append.trans (congrArg (· ++ _) BitVec.and_allOnes)
  rw [TableRow.selects, hmatch, hmask, beq_iff_eq, ← BitVec.toNat_and, BitVec.toNat_inj, hand, cmdWordOf_inj]

/-- Zeros where CRC.UPDATE's row asks for them are zeros above the operand byte. -/
theorem extract_of_update_zeroBits {arg : Word} (h : arg &&& 0xFFFFFF00#32 = 0) : arg.extractLsb' 8 24 = 0 := by
  have hones : (0xFFFFFF00#32).extractLsb' 8 24 = BitVec.allOnes 24 := by decide
  calc arg.extractLsb' 8 24
      = (arg &&& 0xFFFFFF00#32).extractLsb' 8 24 := by rw [BitVec.extractLsb'_and, hones, BitVec.and_allOnes]
    _ = 0 := by rw [h]; rfl

/-- A word that selects a row is legal. -/
theorem decodeCmd_ok_of_selects {r : TableRow} (hr : r ∈ cmdRows) {w : PortWord} (h : r.selects w.toNat = true) :
    ∃ i, decodeCmd w = .ok i := by
  obtain ⟨hop, hzero⟩ := (TableRow.selects_iff hr w).mp h
  rw [decodeCmd_ok_iff, hop]
  rcases cmdRows_forms r hr with ⟨hsome, hbits⟩ | ⟨hupdate, hbits⟩ | hbuild
  · rw [hbits, BitVec.and_allOnes] at hzero
    exact .inl ⟨hsome, hzero⟩
  · rw [hbits] at hzero
    exact .inr (.inl ⟨hupdate, extract_of_update_zeroBits hzero⟩)
  · exact .inr (.inr hbuild)

/-- Every instruction's encoding selects the row that carries its mnemonic. -/
theorem Laws.matchesRow (i : Instr) : Laws.MatchesRow.Statement i := by
  cases i with
  | crcClear => exact MatchesRow.crcClear
  | crcUpdate b => exact MatchesRow.crcUpdate b
  | crcRead => exact MatchesRow.crcRead
  | txBuild code len => exact MatchesRow.txBuild code len
  | txStatus => exact MatchesRow.txStatus
  | rxParse => exact MatchesRow.rxParse
  | rxStatus => exact MatchesRow.rxStatus
  | rxHead => exact MatchesRow.rxHead
  | rxGet8 => exact MatchesRow.rxGet8
  | rxGet16 => exact MatchesRow.rxGet16
  | rxGet32 => exact MatchesRow.rxGet32
  | rxCursor => exact MatchesRow.rxCursor
  | rxRelease => exact MatchesRow.rxRelease
  | frameReq flag code payload c => exact MatchesRow.frameReq flag code payload c
  | frameRsp flag code payload c => exact MatchesRow.frameRsp flag code payload c

/-- No command carries the mnemonic of a frame row. -/
theorem mnemonic_ne_frameRow {i : Instr} (hi : i.isCommand = true) : ∀ r ∈ frameRows, r.mnemonic ≠ i.mnemonic := by
  cases i with
  | frameReq | frameRsp => cases hi
  | _ => simp [frameRows, Instr.mnemonic]

/-- A legal word selects the row of the instruction it decodes to. -/
theorem selects_of_decodeCmd {w : PortWord} {i : Instr} (h : decodeCmd w = .ok i) :
    ∃ r ∈ cmdRows, r.mnemonic = i.mnemonic ∧ r.selects w.toNat = true := by
  obtain ⟨r, hr, hname, hsel⟩ := Laws.matchesRow i
  rw [encode_of_decodeCmd h] at hsel
  rcases List.mem_append.mp hr with hr | hr
  · exact ⟨r, hr, hname, hsel⟩
  · exact absurd hname (mnemonic_ne_frameRow (decodeCmd_isCommand h) r hr)

/-- No word selects two rows. -/
theorem selects_unique {w : PortWord} {r r' : TableRow} (hr : r ∈ cmdRows) (hr' : r' ∈ cmdRows)
    (h : r.selects w.toNat = true) (h' : r'.selects w.toNat = true) : r' = r := by
  obtain ⟨hop, -⟩ := (TableRow.selects_iff hr w).mp h
  obtain ⟨hop', -⟩ := (TableRow.selects_iff hr' w).mp h'
  exact cmdRows_op_inj r' hr' r hr (hop'.symm.trans hop)

/-! ### Frames at the head of a byte sequence (R50 to R52) -/

/-- The 16-bit length field holds a payload's length up to 65535 (R51, R99). -/
theorem lengthField_toNat {payload : List Byte} (h : payload.length ≤ 65535) :
    (BitVec.ofNat 16 payload.length).toNat = payload.length := by
  rw [BitVec.toNat_ofNat]
  exact Nat.mod_eq_of_lt (Nat.lt_succ_of_le h)

/-- A frame's offsets 3 on decode to its fields, whatever follows. -/
theorem decodeFrameBody_frameBody (form : Byte → Half → List Byte → Byte → Instr) (flag : Byte) (code : Half)
    {payload : List Byte} (c : Byte) (after : List Byte) (h : payload.length ≤ 65535) :
    decodeFrameBody form (frameBody flag code payload ++ [c] ++ after) = .ok (form flag code payload c, after) := by
  simp [frameBody, bodyHead, bytesOfHalf, decodeFrameBody, lengthField_toNat h]

/-- The payload of a frame that decodes has a length that the length field can state. -/
theorem lengthFits_of_decodeFrameBody {form : Byte → Half → List Byte → Byte → Instr} {bytes after : List Byte}
    {i : Instr} (hform : ∀ flag code payload c, payload.length ≤ 65535 → (form flag code payload c).lengthFits = true)
    (h : decodeFrameBody form bytes = .ok (i, after)) : i.lengthFits = true := by
  unfold decodeFrameBody at h
  split at h
  · next n0 n1 more =>
    dsimp only at h
    split at h
    · cases h
      refine hform _ _ _ _ ((List.length_take_le _ _).trans ?_)
      exact Nat.le_of_lt_succ (halfOfBytes n0 n1).isLt
    · cases h
  · cases h

/-- What decodes as a frame starts with `$`, `X` and a direction, and that direction's form is read from the rest. -/
theorem decodeFrame_ok_cases {bytes after : List Byte} {i : Instr} (h : decodeFrame bytes = .ok (i, after)) :
    ∃ body, (bytes = sof :: ver :: dirReq :: body ∧ decodeFrameBody .frameReq body = .ok (i, after)) ∨
      (bytes = sof :: ver :: dirRsp :: body ∧ decodeFrameBody .frameRsp body = .ok (i, after)) := by
  unfold decodeFrame at h
  split at h
  case h_2 => cases h
  case h_1 b0 b1 b2 body =>
    by_cases h0 : b0 = sof
    · by_cases h1 : b1 = ver
      · subst h0 h1
        simp only [ne_eq, not_true, if_false] at h
        split at h
        · next h2 => exact ⟨body, .inl ⟨by rw [h2], h⟩⟩
        · split at h
          · next h2 => exact ⟨body, .inr ⟨by rw [h2], h⟩⟩
          · cases h
      · simp [h0, h1] at h
    · simp [h0] at h

/-- What decodes as a frame is the encoding of the instruction and what follows it. -/
theorem encode_of_decodeFrame {bytes after : List Byte} {i : Instr} (h : decodeFrame bytes = .ok (i, after)) :
    i.lengthFits = true ∧ ∃ frame, encode i = .wire frame ∧ bytes = frame ++ after := by
  obtain ⟨body, ⟨rfl, hbody⟩ | ⟨rfl, hbody⟩⟩ := decodeFrame_ok_cases h
  all_goals
    refine ⟨lengthFits_of_decodeFrameBody (fun _ _ _ _ => decide_eq_true) hbody, ?_⟩
    obtain ⟨flag, code, payload, c, rfl, rfl⟩ := decodeFrameBody_ok hbody
    exact ⟨_, rfl, by simp [frameBytes]⟩

theorem decodeFrame_frameReq (flag : Byte) (code : Half) {payload : List Byte} (c : Byte) (after : List Byte)
    (h : payload.length ≤ 65535) :
    decodeFrame (frameBytes dirReq flag code payload c ++ after) = .ok (.frameReq flag code payload c, after) := by
  rw [← decodeFrameBody_frameBody _ flag code c after h]
  simp [frameBytes, decodeFrame]

theorem decodeFrame_frameRsp (flag : Byte) (code : Half) {payload : List Byte} (c : Byte) (after : List Byte)
    (h : payload.length ≤ 65535) :
    decodeFrame (frameBytes dirRsp flag code payload c ++ after) = .ok (.frameRsp flag code payload c, after) := by
  have hne : dirRsp ≠ dirReq := by decide
  rw [← decodeFrameBody_frameBody _ flag code c after h]
  simp [frameBytes, decodeFrame, hne]

/-- A frame at the head of a byte sequence decodes to the instruction it encodes, whatever follows (R51). -/
theorem decodeFrame_of_encode {i : Instr} {bytes : List Byte} (hfits : i.lengthFits = true)
    (henc : encode i = .wire bytes) (after : List Byte) : decodeFrame (bytes ++ after) = .ok (i, after) := by
  cases i with
  | frameReq flag code payload c =>
    cases henc
    exact decodeFrame_frameReq flag code c after (of_decide_eq_true hfits)
  | frameRsp flag code payload c =>
    cases henc
    exact decodeFrame_frameRsp flag code c after (of_decide_eq_true hfits)
  | _ => cases henc

/-- Exactly one whole frame decodes to the instruction it encodes. -/
theorem decode_wire_of_encode {i : Instr} {bytes : List Byte} (hfits : i.lengthFits = true)
    (henc : encode i = .wire bytes) : decode (.wire bytes) = .ok i := by
  have h := decodeFrame_of_encode hfits henc []
  rw [List.append_nil] at h
  simp only [decode, h]

/-! ### A frame at the head of `rxs` (R51) -/

theorem leadingBytes_map_byte_append (bytes : List Byte) (rest : List Token) :
    leadingBytes (bytes.map .byte ++ rest) = bytes ++ leadingBytes rest := by
  induction bytes with
  | nil => rfl
  | cons b bytes ih => simp [leadingBytes, ih]

/-- A whole frame at the head of `rxs` is the one fetched, with as many tokens as it has bytes. -/
theorem fetchFrame_of_encode {s : State} {i : Instr} {bytes : List Byte} {rest : List Token}
    (hfits : i.lengthFits = true) (henc : encode i = .wire bytes) (hrxs : s.rxs = bytes.map .byte ++ rest) :
    fetchFrame s = some (i, bytes.length) := by
  simp only [fetchFrame, hrxs, leadingBytes_map_byte_append, decodeFrame_of_encode hfits henc, List.length_append,
    Nat.add_sub_cancel]

/-- A frame step runs the frame at the head of `rxs` behind its own tokens. -/
theorem frameStep_of_encode {s : State} {i : Instr} {bytes : List Byte} {rest : List Token}
    (hfits : i.lengthFits = true) (henc : encode i = .wire bytes) (hrxs : s.rxs = bytes.map .byte ++ rest) :
    frameStep s = exec i { s with rxs := rest } := by
  have hdrop : s.rxs.drop bytes.length = rest := by
    rw [hrxs, ← List.length_map (f := Token.byte), List.drop_left]
  simp only [frameStep, fetchFrame_of_encode hfits henc hrxs, hdrop]

/-! ### The response of a command (R65, R66) -/

theorem responseWord_status (st : Status) (value : Word) : (responseWord st value).extractLsb' 32 4 = st.code :=
  BitVec.extractLsb'_append_eq_left

theorem responseWord_value (st : Status) (value : Word) : (responseWord st value).extractLsb' 0 32 = value :=
  BitVec.extractLsb'_append_eq_right

/-- Everything a command word can lead to (R65, R154): it is refused, or it is answered OK and writes registers only. -/
theorem runCommand_answers (w : PortWord) (s : State) :
    (∃ st, runCommand w s = .next (refuseCommand st s)) ∨
      ∃ (v : Word) (acc : Byte) (tx : TxRegs) (rx : RxRegs),
        runCommand w s = .next (respond .ok v { s with crcAcc := acc, tx := tx, rx := rx }) := by
  cases hw : decodeCmd w with
  | error e => exact .inl ⟨_, runCommand_of_error hw s⟩
  | ok i =>
    rw [runCommand_of_ok hw]
    rcases exec_command_answers i (decodeCmd_isCommand hw) s with ⟨st, -, h⟩ | ⟨v, acc, tx, rx, h, -⟩
    · exact .inl ⟨st, h⟩
    · exact .inr ⟨v, acc, tx, rx, h⟩

/-! ### The statements of the family -/

/-- Settles O1: a command word is taken apart into the fields it was made of, and a frame's length field says where its
payload ends. -/
theorem decodeOfEncode : Obligations.DecodeOfEncode := by
  intro i hfits
  cases henc : encode i with
  | wire bytes => exact decode_wire_of_encode hfits henc
  | cmdWord w =>
    have hi : i.isCommand = true := by
      cases i with
      | frameReq | frameRsp => cases henc
      | _ => rfl
    exact henc ▸ decode_encode_command hi

/-- Settles O2: the must-be-0 bits of a legal word are 0, and a frame's fields are all of its bytes. -/
theorem encodeOfDecode : Obligations.EncodeOfDecode :=
  ⟨fun _ _ => encode_of_decodeCmd, fun _ _ _ => encode_of_decodeFrame⟩

/-- Settles O3: a row is selected by its op digit and its zeros, no two rows share the digit, and the operands are where
the encoding of the instruction has them. -/
theorem commandWordSelectsOneRow : Obligations.CommandWordSelectsOneRow := by
  refine ⟨fun w => ?_, fun w i h => ?_, fun _ _ => operand_of_update, fun _ _ _ => operands_of_build⟩
  · rw [decodeCmd_error_iff_not_ok]
    refine ⟨fun hnot r hr => Bool.eq_false_iff.mpr fun hsel => hnot (decodeCmd_ok_of_selects hr hsel), ?_⟩
    rintro hnone ⟨i, hi⟩
    obtain ⟨r, hr, -, hsel⟩ := selects_of_decodeCmd hi
    exact Bool.eq_false_iff.mp (hnone r hr) hsel
  · obtain ⟨r, hr, hname, hsel⟩ := selects_of_decodeCmd h
    exact ⟨r, hr, hname, hsel, fun r' hr' hsel' => selects_unique hr hr' hsel hsel'⟩

/-- Settles O4: what is no legal form of its op digit is reserved, and CMD refuses it. -/
theorem reservedCommandWords : Obligations.ReservedCommandWords := by
  refine ⟨fun w => ?_, fun w e s h => runCommand_of_error h s, ⟨_, rfl⟩, ⟨_, rfl⟩⟩
  have hupper : (cmdArg w).extractLsb' 8 24 = w.extractLsb' 8 24 := BitVec.extractLsb'_extractLsb'_of_le (by omega)
  rw [decodeCmd_error_iff, noOperandInstr_isSome_iff, hupper]
  rfl

/-- Settles O46: a command word is refused with value 0 and nothing else, or answered OK. -/
theorem everyCommandOneResponse : Obligations.EveryCommandOneResponse := by
  intro w s
  rcases runCommand_answers w s with ⟨st, h⟩ | ⟨v, acc, tx, rx, h⟩
  · exact ⟨_, responseWord st 0, h, rfl, fun _ => ⟨responseWord_value st 0, rfl⟩⟩
  · exact ⟨_, responseWord .ok v, h, rfl, fun hne => absurd (responseWord_status .ok v) hne⟩

/-- Settles O5, by decoding each word and each frame. -/
theorem sampleEncodingsDecode : Obligations.SampleEncodingsDecode := by
  unfold Obligations.SampleEncodingsDecode
  decide

/-- Settles O7: the bytes at the head of `rxs` are the frame's and those behind it, and a frame decodes whatever
follows. -/
theorem stepRunsFrameAtHead : Obligations.StepRunsFrameAtHead := by
  intro s i bytes rest later hfits henc hrxs hagenda
  calc step s = frameStep { s with agenda := later } := step_agenda hagenda
    _ = exec i { s with agenda := later, rxs := rest } :=
      frameStep_of_encode (s := { s with agenda := later }) hfits henc hrxs

end Sys2Proof
end

section
/-! SUPPORT. What the statements about the checksum unit need: one iteration bit by bit, its linearity and injectivity
carried along the iterations, the update and the fold, and what the three operations do to the state. -/

namespace Sys2Proof.Machine

/-! ### One iteration (R76) -/

/-- One iteration bit by bit: each bit moves up by one, and the bit shifted out is added where the
polynomial has a 1. -/
theorem getLsbD_crc8Shift (t : Byte) (i : Nat) :
    (crc8Shift t).getLsbD i = ((t <<< 1).getLsbD i ^^ (t.getLsbD 7 && poly.getLsbD i)) := by
  unfold crc8Shift
  split
  · next h => rw [BitVec.getLsbD_xor, h, Bool.true_and]
  · next h => rw [Bool.eq_false_of_not_eq_true h, Bool.false_and, Bool.xor_false]

theorem crc8Shift_xor (x y : Byte) : crc8Shift (x ^^^ y) = crc8Shift x ^^^ crc8Shift y := by
  apply BitVec.eq_of_getLsbD_eq
  intro i _
  simp only [getLsbD_crc8Shift, BitVec.shiftLeft_xor_distrib, BitVec.getLsbD_xor, Bool.and_xor_distrib_right,
    Bool.xor_assoc, Bool.xor_left_comm]

/-- The polynomial's bit 0 tells whether a bit was shifted out, and the others are still there. -/
theorem eq_zero_of_crc8Shift_eq_zero {t : Byte} (h : crc8Shift t = 0) : t = 0 := by
  have hbit (i : Nat) : ((t <<< 1).getLsbD i ^^ (t.getLsbD 7 && poly.getLsbD i)) = false := by
    rw [← getLsbD_crc8Shift, h]
    exact BitVec.getLsbD_zero
  have htop : t.getLsbD 7 = false := by simpa [poly] using hbit 0
  simp only [htop, Bool.false_and, Bool.xor_false] at hbit
  apply BitVec.eq_of_getLsbD_eq
  intro i hi
  rw [BitVec.ofNat_eq_ofNat, BitVec.getLsbD_zero]
  rcases Nat.lt_succ_iff_lt_or_eq.mp hi with hlt | rfl
  · simpa [hi, Nat.succ_lt_succ hlt] using hbit (i + 1)
  · exact htop

/-! ### Eight iterations (R75) -/

theorem crc8Shifts_xor (n : Nat) (x y : Byte) : crc8Shifts n (x ^^^ y) = crc8Shifts n x ^^^ crc8Shifts n y := by
  induction n generalizing x y with
  | zero => rfl
  | succ n ih => simp only [crc8Shifts, crc8Shift_xor, ih]

theorem eq_zero_of_crc8Shifts_eq_zero {n : Nat} {t : Byte} (h : crc8Shifts n t = 0) : t = 0 := by
  induction n generalizing t with
  | zero => exact h
  | succ n ih => exact eq_zero_of_crc8Shift_eq_zero (ih h)

/-- R80 law 1: an update sees its two arguments through their XOR only. -/
theorem crc8Update_congr {s b s' b' : Byte} (h : s ^^^ b = s' ^^^ b') : crc8Update s b = crc8Update s' b' :=
  congrArg (crc8Shifts 8) h

theorem crc8Update_eq_table (s b : Byte) : crc8Update s b = crc8Update 0 (s ^^^ b) :=
  crc8Update_congr BitVec.zero_xor.symm

theorem crc8Update_comm (s b : Byte) : crc8Update s b = crc8Update b s :=
  crc8Update_congr (BitVec.xor_comm s b)

/-- R80 law 2. -/
theorem crc8Update_xor (s₁ s₂ b₁ b₂ : Byte) :
    crc8Update (s₁ ^^^ s₂) (b₁ ^^^ b₂) = crc8Update s₁ b₁ ^^^ crc8Update s₂ b₂ := by
  have hswap : (s₁ ^^^ s₂) ^^^ (b₁ ^^^ b₂) = (s₁ ^^^ b₁) ^^^ (s₂ ^^^ b₂) := by ac_rfl
  simp only [crc8Update, hswap, crc8Shifts_xor]

theorem crc8Update_zero_zero : crc8Update 0 0 = 0 := by decide

/-- R80 law 2, for the table `T[x] = crc8Update 0 x`. -/
theorem crc8Update_zero_xor (x y : Byte) : crc8Update 0 (x ^^^ y) = crc8Update 0 x ^^^ crc8Update 0 y :=
  crc8Update_xor 0 0 x y

/-- R80 law 5. -/
theorem crc8Update_self (s : Byte) : crc8Update s s = 0 :=
  (crc8Update_congr (by rw [BitVec.xor_self, BitVec.xor_self])).trans crc8Update_zero_zero

/-- R80 law 3: by linearity it is enough that no byte but 0 is taken to 0. -/
theorem crc8Update_right_injective (s : Byte) : Function.Injective (crc8Update s) := by
  intro x y h
  have hdiff : crc8Shifts 8 ((s ^^^ x) ^^^ (s ^^^ y)) = 0 := by
    rw [crc8Shifts_xor]
    exact BitVec.xor_eq_zero_iff.mpr h
  exact (BitVec.xor_right_inj s).mp (BitVec.xor_eq_zero_iff.mp (eq_zero_of_crc8Shifts_eq_zero hdiff))

theorem crc8Update_right_bijective (s : Byte) : Function.Bijective (crc8Update s) :=
  have : Finite Byte := Finite.of_injective BitVec.toFin fun _ _ => BitVec.eq_of_toFin_eq
  Finite.injective_iff_bijective.mp (crc8Update_right_injective s)

theorem crc8Update_left_bijective (b : Byte) : Function.Bijective fun s => crc8Update s b := by
  simpa only [crc8Update_comm _ b] using crc8Update_right_bijective b

/-! ### The closed form of an update (R78) -/

/-- The part of the table's entry that one bit of the index selects. -/
theorem crc8Update_zero_ite (c : Bool) (x : Byte) :
    crc8Update 0 (if c then x else 0) = if c then crc8Update 0 x else 0 := by
  cases c
  · exact crc8Update_zero_zero
  · rfl

theorem getLsbD_ite_zero (c : Bool) (x : Byte) (i : Nat) :
    (if c then x else 0).getLsbD i = (c && x.getLsbD i) := by
  cases c
  · exact BitVec.getLsbD_zero
  · rfl

/-- A byte is the XOR of its 1 bits. -/
theorem eq_xor_of_bits (x : Byte) :
    x = (if x.getLsbD 0 then 0x01 else 0) ^^^ (if x.getLsbD 1 then 0x02 else 0) ^^^
      (if x.getLsbD 2 then 0x04 else 0) ^^^ (if x.getLsbD 3 then 0x08 else 0) ^^^
      (if x.getLsbD 4 then 0x10 else 0) ^^^ (if x.getLsbD 5 then 0x20 else 0) ^^^
      (if x.getLsbD 6 then 0x40 else 0) ^^^ (if x.getLsbD 7 then 0x80 else 0) := by
  apply BitVec.eq_of_getLsbD_eq
  intro i hi
  simp only [BitVec.getLsbD_xor, getLsbD_ite_zero]
  interval_cases i <;> simp

/-- R78: the columns of the table. -/
theorem crc8Update_zero_columns (x : Byte) : crc8Update 0 x =
    (if x.getLsbD 0 then 0xD5 else 0) ^^^ (if x.getLsbD 1 then 0x7F else 0) ^^^
    (if x.getLsbD 2 then 0xFE else 0) ^^^ (if x.getLsbD 3 then 0x29 else 0) ^^^
    (if x.getLsbD 4 then 0x52 else 0) ^^^ (if x.getLsbD 5 then 0xA4 else 0) ^^^
    (if x.getLsbD 6 then 0x9D else 0) ^^^ (if x.getLsbD 7 then 0xEF else 0) := by
  have h0 : crc8Update 0 0x01 = 0xD5 := by decide
  have h1 : crc8Update 0 0x02 = 0x7F := by decide
  have h2 : crc8Update 0 0x04 = 0xFE := by decide
  have h3 : crc8Update 0 0x08 = 0x29 := by decide
  have h4 : crc8Update 0 0x10 = 0x52 := by decide
  have h5 : crc8Update 0 0x20 = 0xA4 := by decide
  have h6 : crc8Update 0 0x40 = 0x9D := by decide
  have h7 : crc8Update 0 0x80 = 0xEF := by decide
  conv_lhs => rw [eq_xor_of_bits x]
  simp only [crc8Update_zero_xor, crc8Update_zero_ite, h0, h1, h2, h3, h4, h5, h6, h7]

/-! ### The fold (R77) -/

@[simp] theorem crc8From_nil (s : Byte) : crc8From s [] = s := rfl

@[simp] theorem crc8From_cons (s b : Byte) (m : List Byte) : crc8From s (b :: m) = crc8From (crc8Update s b) m := rfl

/-- R80 law 6. -/
theorem crc8From_append (s : Byte) (m₁ m₂ : List Byte) : crc8From s (m₁ ++ m₂) = crc8From (crc8From s m₁) m₂ :=
  List.foldl_append

/-- R80 law 2, for byte sequences of equal length from any two states. -/
theorem crc8From_zipWith_xor (s₁ s₂ : Byte) {m₁ m₂ : List Byte} (h : m₁.length = m₂.length) :
    crc8From (s₁ ^^^ s₂) (List.zipWith (· ^^^ ·) m₁ m₂) = crc8From s₁ m₁ ^^^ crc8From s₂ m₂ := by
  induction m₁ generalizing m₂ s₁ s₂ with
  | nil => rw [List.eq_nil_of_length_eq_zero h.symm]; rfl
  | cons b₁ m₁ ih =>
    cases m₂ with
    | nil => cases h
    | cons b₂ m₂ =>
      rw [List.zipWith_cons_cons, crc8From_cons, crc8Update_xor]
      exact ih _ _ (Nat.succ.inj h)

/-- A fold over any bytes keeps different states different: it is a chain of bijections (R80 laws 3 and 7). -/
theorem crc8From_injective (m : List Byte) : Function.Injective fun s => crc8From s m := by
  induction m with
  | nil => exact Function.injective_id
  | cons b m ih => exact ih.comp (crc8Update_left_bijective b).injective

/-- R80 law 7, for any change of one byte. -/
theorem crc8_ne_of_byte_ne (before after : List Byte) {x y : Byte} (h : x ≠ y) :
    crc8 (before ++ x :: after) ≠ crc8 (before ++ y :: after) := by
  simp only [crc8, crc8From_append, crc8From_cons]
  exact (crc8From_injective after).ne ((crc8Update_right_injective _).ne h)

theorem xor_twoPow_ne (x : Byte) {k : Nat} (hk : k < 8) : x ^^^ BitVec.twoPow 8 k ≠ x := by
  intro h
  have hbit : (x ^^^ BitVec.twoPow 8 k).getLsbD k = x.getLsbD k := by rw [h]
  simp [hk] at hbit

/-! ### The operations on CRC_ACC (R81 to R84) -/

theorem exec_crcClear (s : State) :
    exec .crcClear s = .next { s with crcAcc := 0x00, rsp := s.rsp ++ [0#4 ++ 0#32] } := rfl

theorem exec_crcUpdate (b : Byte) (s : State) :
    exec (.crcUpdate b) s = .next { s with
      crcAcc := crc8Update s.crcAcc b, rsp := s.rsp ++ [0#4 ++ (0#24 ++ crc8Update s.crcAcc b)] } := by
  rw [← zext_byte]
  rfl

theorem exec_crcRead (s : State) :
    exec .crcRead s = .next { s with rsp := s.rsp ++ [0#4 ++ (0#24 ++ s.crcAcc)] } := by
  rw [← zext_byte]
  rfl

theorem execAll_cons_of_next {i : Instr} {s t : State} (h : exec i s = .next t) (is : List Instr) :
    execAll (i :: is) s = execAll is t := by
  simp only [execAll, h]

/-- One CRC.UPDATE per byte leaves the fold in CRC_ACC and one response word per byte. -/
theorem execAll_crcUpdates (bytes : List Byte) (is : List Instr) (s : State) :
    ∃ words : List PortWord, words.length = bytes.length ∧
      execAll (bytes.map .crcUpdate ++ is) s =
        execAll is { s with crcAcc := crc8From s.crcAcc bytes, rsp := s.rsp ++ words } := by
  induction bytes generalizing s with
  | nil => exact ⟨[], rfl, by simp⟩
  | cons b bytes ih =>
    obtain ⟨words, hlen, hrun⟩ := ih { s with
      crcAcc := crc8Update s.crcAcc b, rsp := s.rsp ++ [0#4 ++ (0#24 ++ crc8Update s.crcAcc b)] }
    refine ⟨(0#4 ++ (0#24 ++ crc8Update s.crcAcc b)) :: words, congrArg Nat.succ hlen, ?_⟩
    rw [List.map_cons, List.cons_append, execAll_cons_of_next (exec_crcUpdate b s), hrun]
    simp

end Sys2Proof.Machine

namespace Sys2Proof

open Sys2Proof.Machine

/-! ### The statements of the family -/

/-- Settles O11: the update is linear and takes no byte but 0 to 0, and the fold is a chain of updates. -/
theorem crcLaws : Obligations.CrcLaws := by
  refine ⟨fun s b => ⟨crc8Update_congr BitVec.xor_zero.symm, crc8Update_eq_table s b⟩,
    ⟨crc8Update_zero_zero, crc8Update_zero_xor, crc8Update_xor, fun m₁ m₂ => crc8From_zipWith_xor 0 0⟩,
    ⟨crc8Update_right_bijective 0, crc8Update_left_bijective, crc8Update_right_bijective⟩,
    ⟨crc8Update_zero_zero, fun m => ?leadingZero⟩, ⟨crc8Update_self, fun m => ?selfCheck⟩,
    crc8From_append crcInit,
    fun before after x k hk => crc8_ne_of_byte_ne before after (xor_twoPow_ne x hk)⟩
  case leadingZero => exact congrArg (crc8From · m) crc8Update_zero_zero
  case selfCheck => rw [crc8_concat, crc8Update_self]

/-- Settles O15: the responses of the updates are counted, and the last word is what CRC_ACC then holds. -/
theorem crcComputeAnswersFold : Obligations.CrcComputeAnswersFold := by
  intro bytes s
  obtain ⟨words, hlen, hrun⟩ := execAll_crcUpdates bytes [.crcRead]
    { s with crcAcc := 0x00, rsp := s.rsp ++ [0#4 ++ 0#32] }
  refine ⟨(0#4 ++ 0#32) :: words, congrArg Nat.succ hlen, ?_⟩
  rw [List.cons_append, execAll_cons_of_next (exec_crcClear s), hrun, execAll_cons_of_next (exec_crcRead _)]
  simp [execAll, crc8, crcInit]

/-- Settles O10: the columns are the table's entries at the single bits, and each output bit is read off the columns. -/
theorem crcUpdateClosedForm : Obligations.CrcUpdateClosedForm := by
  refine ⟨?_, crc8Update_eq_table, crc8Update_zero_columns⟩
  intro s b t n ht hn
  rw [crc8Update_eq_table, ← ht, crc8Update_zero_columns] at hn
  have hcomm : Std.Commutative Bool.xor := ⟨Bool.xor_comm⟩
  simp only [hn, BitVec.getLsbD_xor, getLsbD_ite_zero, BitVec.reduceGetLsb, Bool.and_true, Bool.and_false,
    Bool.xor_false, Bool.false_xor]
  refine ⟨?_, ?_, ?_, ?_, ?_, ?_, ?_, ?_⟩ <;> ac_rfl

/-- Settles O12: CRC_INIT is 0, and a response writes `rsp` only. -/
theorem crcClearEffect : Obligations.CrcClearEffect := exec_crcClear

/-- Settles O13: a byte zero-extended has 24 zero bits in front. -/
theorem crcUpdateEffect : Obligations.CrcUpdateEffect := exec_crcUpdate

/-- Settles O14: a response writes `rsp` only, here with the accumulator zero-extended. -/
theorem crcReadEffect : Obligations.CrcReadEffect := exec_crcRead

end Sys2Proof
end

section
/-! SUPPORT. What the statements about the builder need: TX.BUILD and TX.STATUS, TXSEQ's step phase by phase, its
emission of a whole frame as an iteration of that step, and runs in which TXSEQ has every turn. -/

namespace Sys2Proof.Machine

/-! ### The two operations (R91, R92) -/

/-- The state an accepted TX.BUILD leaves, the rest of `cmd` being `cmds` (R91). -/
def buildAccepted (code len : Half) (cmds : List PortWord) (s : State) : State :=
  { s with cmd := cmds, rsp := s.rsp ++ [0#4 ++ 0#32],
           tx := { s.tx with code := code, len := len, cnt := 0x0000, phase := .hdr0 } }

theorem execTxBuild_of_idle (code len : Half) {s : State} (h : s.tx.phase = .idle) :
    execTxBuild code len s = .next (buildAccepted code len s.cmd s) := by
  simp only [execTxBuild, txBusy, h, bne_self_eq_false, Bool.false_eq_true, if_false]
  rfl

theorem txStatusValue_eq (s : State) : txStatusValue s = if s.tx.phase = .idle then 0#32 else 1#32 := by
  by_cases h : s.tx.phase = .idle
  · simp [txStatusValue, txBusy, h]
  · simp [txStatusValue, txBusy, h, bne_iff_ne.mpr h]

/-! ### TXSEQ's step in each phase, SINK being ready (R93 to R95) -/

section Phases

variable {s : State} (hready : s.sinkReady = true)
include hready

theorem txStep_of_ready : txStep s = txPhaseStep s :=
  if_pos hready

theorem txStep_hdr0 (hp : s.tx.phase = .hdr0) : txStep s = txPlain sof .hdr1 s := by
  simp only [txStep_of_ready hready, txPhaseStep, hp]

theorem txStep_hdr1 (hp : s.tx.phase = .hdr1) : txStep s = txPlain ver .hdr2 s := by
  simp only [txStep_of_ready hready, txPhaseStep, hp]

theorem txStep_hdr2 (hp : s.tx.phase = .hdr2) :
    txStep s = emit dirReq false { s with tx := { s.tx with crc := crcInit, phase := .flag } } := by
  simp only [txStep_of_ready hready, txPhaseStep, hp]

theorem txStep_flag (hp : s.tx.phase = .flag) : txStep s = txBody flagTx .codeLo s := by
  simp only [txStep_of_ready hready, txPhaseStep, hp]

theorem txStep_codeLo (hp : s.tx.phase = .codeLo) : txStep s = txBody (loByte s.tx.code) .codeHi s := by
  simp only [txStep_of_ready hready, txPhaseStep, hp]

theorem txStep_codeHi (hp : s.tx.phase = .codeHi) : txStep s = txBody (hiByte s.tx.code) .lenLo s := by
  simp only [txStep_of_ready hready, txPhaseStep, hp]

theorem txStep_lenLo (hp : s.tx.phase = .lenLo) : txStep s = txBody (loByte s.tx.len) .lenHi s := by
  simp only [txStep_of_ready hready, txPhaseStep, hp]

theorem txStep_lenHi (hp : s.tx.phase = .lenHi) : txStep s = txBody (hiByte s.tx.len) (txAfterLength s) s := by
  simp only [txStep_of_ready hready, txPhaseStep, hp]

theorem txStep_payload (hp : s.tx.phase = .payload) {b : Byte} {rest : List Byte} (htxp : s.txp = b :: rest) :
    txStep s = txPayloadByte b { s with txp := rest } := by
  simp only [txStep_of_ready hready, txPhaseStep, hp, htxp]

theorem txStep_crc (hp : s.tx.phase = .crc) :
    txStep s = emit s.tx.crc true { s with tx := { s.tx with phase := .idle } } := by
  simp only [txStep_of_ready hready, txPhaseStep, hp]

end Phases

theorem txStep_idle {s : State} (hp : s.tx.phase = .idle) : txStep s = s :=
  txStep_of_disabled (by simp [txEnabled, txBusy, hp])

/-! ### A whole frame (R90, R96) -/

theorem markLast_concat (l : List Byte) (b : Byte) : markLast (l ++ [b]) = l.map (·, false) ++ [(b, true)] := by
  induction l with
  | nil => rfl
  | cons x l ih =>
    rw [List.cons_append, markLast, ih]
    · rfl
    · simp

/-- R93: eight steps emit the three header bytes and the five bytes in front of the payload, the last five folded. -/
theorem txStep_iterate_fixed {s : State} (hready : s.sinkReady = true) (hp : s.tx.phase = .hdr0) :
    txStep^[8] s = { s with
      txs := s.txs ++ ([sof, ver, dirReq] ++ bodyHead flagTx s.tx.code s.tx.len).map (·, false),
      tx := { s.tx with crc := crc8 (bodyHead flagTx s.tx.code s.tx.len), phase := txAfterLength s } } := by
  simp [Function.iterate_succ_apply, txStep_hdr0, txStep_hdr1, txStep_hdr2, txStep_flag, txStep_codeLo,
    txStep_codeHi, txStep_lenLo, txStep_lenHi, hready, hp, txPlain, txBody, emit, txAfterLength, bodyHead, bytesOfHalf,
    crc8]

/-- R94: with `cnt` payload bytes sent, one step for each byte `p` still to send; the phase is T_CRC behind the last. -/
theorem txStep_iterate_payload {p more : List Byte} {s : State} (hready : s.sinkReady = true)
    (hp : s.tx.phase = if s.tx.cnt = s.tx.len then .crc else .payload)
    (hleft : s.tx.cnt.toNat + p.length = s.tx.len.toNat) (htxp : s.txp = p ++ more) :
    txStep^[p.length] s = { s with
      txp := more, txs := s.txs ++ p.map (·, false),
      tx := { s.tx with cnt := s.tx.len, crc := crc8From s.tx.crc p, phase := .crc } } := by
  induction p generalizing s with
  | nil =>
    have hcnt : s.tx.cnt = s.tx.len := BitVec.eq_of_toNat_eq hleft
    rw [if_pos hcnt] at hp
    obtain rfl : s.txp = more := htxp
    rw [← hcnt, ← hp]
    simp
  | cons b p ih =>
    rw [List.length_cons] at hleft
    have hlt : s.tx.cnt.toNat < s.tx.len.toNat := by omega
    rw [if_neg fun h => hlt.ne (congrArg _ h)] at hp
    have hcnt := toNat_add_one_of_lt hlt
    have hleft' : (s.tx.cnt + 1).toNat + p.length = s.tx.len.toNat := by omega
    calc txStep^[(b :: p).length] s
        = txStep^[p.length] (txPayloadByte b { s with txp := p ++ more }) :=
          congrArg (txStep^[p.length]) (txStep_payload hready hp htxp)
      _ = _ := ih (s := txPayloadByte b { s with txp := p ++ more }) hready rfl hleft' rfl
      _ = _ := by simp [txPayloadByte, emit]

/-- R96, up to the checksum byte: from T_HDR0, 8 + len steps emit the whole frame but that byte. -/
theorem txStep_iterate_build {p more : List Byte} {s : State} (hready : s.sinkReady = true)
    (hp : s.tx.phase = .hdr0) (hcnt : s.tx.cnt = 0) (hlen : p.length = s.tx.len.toNat) (htxp : s.txp = p ++ more) :
    txStep^[p.length + 8] s = { s with
      txp := more, txs := s.txs ++ ([sof, ver, dirReq] ++ frameBody flagTx s.tx.code p).map (·, false),
      tx := { s.tx with cnt := s.tx.len, crc := frameChecksum flagTx s.tx.code p, phase := .crc } } := by
  have hfield : BitVec.ofNat 16 p.length = s.tx.len := by rw [hlen, BitVec.ofNat_toNat, BitVec.setWidth_eq]
  rw [Function.iterate_add_apply, txStep_iterate_fixed hready hp,
    txStep_iterate_payload (more := more) ?ready ?phase ?left ?txp]
  case ready => exact hready
  case phase => simp only [txAfterLength, hcnt, eq_comm (a := (0 : Half))]
  case left => simp [hcnt, hlen]
  case txp => exact htxp
  simp [frameChecksum, frameBody, hfield, crc8, crc8From_append]

/-- R95, R96: one step more emits the checksum byte, marked, and ends the frame. -/
theorem txStep_iterate_frame {p more : List Byte} {s : State} (hready : s.sinkReady = true)
    (hp : s.tx.phase = .hdr0) (hcnt : s.tx.cnt = 0) (hlen : p.length = s.tx.len.toNat) (htxp : s.txp = p ++ more) :
    txStep^[p.length + 9] s = { s with
      txp := more, txs := s.txs ++ markLast (buildFrame s.tx.code p),
      tx := { s.tx with cnt := s.tx.len, crc := frameChecksum flagTx s.tx.code p, phase := .idle } } := by
  rw [Function.iterate_succ_apply', txStep_iterate_build hready hp hcnt hlen htxp, txStep_crc ?ready ?phase, buildFrame,
    frameBytes, markLast_concat, ← List.append_assoc]
  case ready => exact hready
  case phase => rfl
  rfl

/-- Once T_IDLE is reached it stays: where it is not reached by `n` steps, it is not reached by fewer. -/
theorem txStep_iterate_not_idle {s : State} {k n : Nat} (hk : k ≤ n) (hn : (txStep^[n] s).tx.phase ≠ .idle) :
    (txStep^[k] s).tx.phase ≠ .idle := by
  intro h
  rw [← Nat.sub_add_cancel hk, Function.iterate_add_apply, Function.iterate_fixed (txStep_idle h)] at hn
  exact hn h

/-! ### Runs of TXSEQ -/

/-- Where TXSEQ has the next `n` turns, a run is `n` of its steps. -/
theorem runSteps_txseq (n : Nat) (s : State) (later : List Turn) :
    runSteps n { s with agenda := List.replicate n (.agent .txseq) ++ later } =
      .next { txStep^[n] s with agenda := later } := by
  induction n generalizing s with
  | zero => rfl
  | succ n ih =>
    rw [List.replicate_succ, List.cons_append, Function.iterate_succ_apply, ← ih]
    exact runSteps_succ_agenda rfl (congrArg _ (txStep_setAgenda s _))

theorem takeTurn_build {s : State} {w : PortWord} {code len : Half} {cmds : List PortWord}
    (hw : decodeCmd w = .ok (.txBuild code len)) (hcmd : s.cmd = w :: cmds) (hidle : s.tx.phase = .idle) :
    takeTurn (.agent .cmd) s = .next (buildAccepted code len cmds s) := by
  rw [takeTurn_cmd hcmd, runCommand_of_ok hw]
  exact execTxBuild_of_idle code len hidle

/-- CMD's turn takes TX.BUILD off `cmd`; TXSEQ has the `n` turns after it. -/
theorem runSteps_build_txseq {s : State} {w : PortWord} {code len : Half} {cmds : List PortWord}
    (hw : decodeCmd w = .ok (.txBuild code len)) (hcmd : s.cmd = w :: cmds) (hidle : s.tx.phase = .idle)
    (n : Nat) (later : List Turn) :
    runSteps (1 + n) { s with agenda := .agent .cmd :: (List.replicate n (.agent .txseq) ++ later) } =
      .next { txStep^[n] (buildAccepted code len cmds s) with agenda := later } := by
  rw [← runSteps_txseq, Nat.add_comm]
  exact runSteps_succ_agenda rfl (takeTurn_build (s := { s with agenda := _ }) hw hcmd hidle)

end Sys2Proof.Machine

namespace Sys2Proof

open Sys2Proof.Machine

/-! ### The statements of the family -/

/-- Settles O20: the frame is its fixed bytes, its payload and its checksum, emitted by as many steps; T_IDLE is final,
and T_CRC is still the phase before the last of them. -/
theorem txBuildEmitsBuiltFrame : Obligations.TxBuildEmitsBuiltFrame := by
  intro s w code len p more cmds later hw hcmd hidle hready htxp hlen
  have hrun := runSteps_build_txseq hw hcmd hidle
  constructor
  · rw [Nat.add_comm 9]
    refine (hrun (p.length + 9) later).trans ?_
    rw [txStep_iterate_frame (s := buildAccepted code len cmds s) hready rfl rfl hlen htxp]
    rfl
  · intro k hk
    have hsplit : List.replicate (9 + p.length) (Turn.agent .txseq) =
        List.replicate k (.agent .txseq) ++ List.replicate (9 + p.length - k) (.agent .txseq) := by
      rw [List.replicate_append_replicate, Nat.add_sub_of_le hk.le]
    rw [hsplit, List.cons_append, List.append_assoc]
    refine ⟨_, hrun k _, txStep_iterate_not_idle (n := p.length + 8) (by omega) ?_⟩
    rw [txStep_iterate_build (s := buildAccepted code len cmds s) hready rfl rfl hlen htxp]
    exact nofun

/-- Settles O16: the operation looks at TX_PHASE only. -/
theorem txBuildEffect : Obligations.TxBuildEffect := fun code len _ =>
  ⟨execTxBuild_of_idle code len, execTxBuild_of_busy code len⟩

/-- Settles O17: the response carries TX_BUSY. -/
theorem txStatusEffect : Obligations.TxStatusEffect := by
  intro s
  rw [← txStatusValue_eq]
  rfl

/-- Settles O18: the fixed bytes and fields as each phase emits them. -/
theorem txFixedByteSteps : Obligations.TxFixedByteSteps := fun _ hready =>
  ⟨txStep_hdr0 hready, txStep_hdr1 hready, txStep_hdr2 hready, txStep_flag hready, txStep_codeLo hready,
    txStep_codeHi hready, txStep_lenLo hready, txStep_lenHi hready⟩

/-- Settles O19: the two emitting phases, and the three ways in which TXSEQ has no enabled step. -/
theorem txPayloadAndChecksumSteps : Obligations.TxPayloadAndChecksumSteps := by
  intro s
  refine ⟨fun hready hp b rest htxp => txStep_payload hready hp htxp, txStep_crc, fun hp htxp => ?noByte,
    fun hready => ?noSink, txStep_idle⟩
  case noByte => exact txStep_of_disabled (by simp [txEnabled, hp, htxp])
  case noSink => exact txStep_of_disabled (by simp [txEnabled, hready])

end Sys2Proof
end

section
/-! SUPPORT. What the statements about the parser need: the four operations, RXSEQ's step phase by phase, runs in which
RXSEQ has every turn, a whole frame taken from R_HDR0, and the function of R105 taken one token at a time. -/

namespace Sys2Proof.Machine

/-! ### The four operations (R106, R123 to R125) -/

theorem execRxParse_of_free {s : State} (hp : s.rx.phase = .idle) (hr : s.rx.result = .none) :
    execRxParse s = .next (respond .ok 0 { clearErrors s with rx := { (clearErrors s).rx with phase := .hdr0 } }) := by
  simp [execRxParse, rxBusy, hp, hr]

theorem execRxParse_of_taken {s : State} (h : s.rx.phase ≠ .idle ∨ s.rx.result ≠ .none) :
    execRxParse s = .next (refuseCommand .busy s) := by
  have htaken : (rxBusy s || s.rx.result != .none) = true := by simpa [rxBusy] using h
  rw [execRxParse, if_pos htaken]

theorem execRxHead_of_frame {s : State} (hr : s.rx.result = .frame) :
    execRxHead s = .next (respond .ok (s.rx.len ++ s.rx.code) s) := by
  simp [execRxHead, hr]

theorem execRxHead_of_noFrame {s : State} (hr : s.rx.result ≠ .frame) :
    execRxHead s = .next (refuseCommand .noFrame s) := by
  simp [execRxHead, hr]

/-- RX.STATUS's value as a number: every field at its bit position (R123). -/
theorem rxStatusValue_toNat (s : State) :
    (rxStatusValue s).toNat = s.rx.result.code.toNat + 4 * s.rx.cause.code.toNat + 32 * (rxBusy s).toNat +
      256 * s.rx.errComputed.toNat + 65536 * s.rx.errReceived.toNat + 16777216 * s.rx.errIo.toNat := by
  have hzero : (0 : BitVec 2).toNat = 0 := rfl
  simp only [rxStatusValue, toNat_append_add, BitVec.toNat_ofBool, hzero]
  omega

/-- Each field of RX.STATUS's value stands in its place (R123). -/
theorem rxStatusValue_fields (s : State) :
    (rxStatusValue s).extractLsb' 0 2 = s.rx.result.code ∧ (rxStatusValue s).extractLsb' 2 3 = s.rx.cause.code ∧
      (rxStatusValue s).getLsbD 5 = decide (s.rx.phase ≠ .idle) ∧ (rxStatusValue s).extractLsb' 6 2 = 0#2 ∧
      (rxStatusValue s).extractLsb' 8 8 = s.rx.errComputed ∧ (rxStatusValue s).extractLsb' 16 8 = s.rx.errReceived ∧
      (rxStatusValue s).extractLsb' 24 8 = s.rx.errIo := by
  have hresult := s.rx.result.code.isLt
  have hcause := s.rx.cause.code.isLt
  have hbusy := (rxBusy s).toNat_le
  have hcomp := s.rx.errComputed.isLt
  have hrec := s.rx.errReceived.isLt
  have hio := s.rx.errIo.isLt
  have hzero : (0#2).toNat = 0 := rfl
  refine ⟨?_, ?_, ?busyBit, ?_, ?_, ?_, ?_⟩
  case busyBit =>
    simp only [rxStatusValue, BitVec.getLsbD_append]
    simp [rxBusy, bne, beq_eq_decide]
  all_goals
    apply BitVec.eq_of_toNat_eq
    simp only [BitVec.extractLsb'_toNat, rxStatusValue_toNat, Nat.shiftRight_eq_div_pow, hzero]
    omega

/-- An outcome held means that no parse runs (R28 item 1). -/
theorem ParserInv.idle_of_result {f : Byte} {s : State} (hinv : ParserInv f s) (hr : s.rx.result ≠ .none) :
    s.rx.phase = .idle :=
  by_contra fun hp => hr (hinv.busy hp)

/-- RX.STATUS's value from the registers it shows. -/
theorem rxStatusValue_of_registers {s : State} {busy : Bool} {result : ParseResult} {cause : ErrCause}
    {computed received io : Byte} (hb : rxBusy s = busy) (hr : s.rx.result = result) (hc : s.rx.cause = cause)
    (hcomp : s.rx.errComputed = computed) (hrec : s.rx.errReceived = received) (hio : s.rx.errIo = io) :
    rxStatusValue s =
      io ++ (received ++ (computed ++ (0#2 ++ (BitVec.ofBool busy ++ (cause.code ++ result.code))))) := by
  subst hb hr hc hcomp hrec hio
  rfl

/-- R123: under R28 the registers that RX.STATUS shows have one of the listed values. -/
theorem ParserInv.rxStatusValue_listed {f : Byte} {s : State} (hinv : ParserInv f s) :
    rxStatusValue s ∈
        [0x00000000#32, 0x00000020#32, 0x00000001#32, 0x00000006#32, 0x0000000A#32, 0x0000000E#32] ∨
      (∃ computed received : Byte, computed ≠ received ∧
        rxStatusValue s = 0x00#8 ++ (received ++ (computed ++ 0x12#8))) ∨
      ∃ io : Byte, rxStatusValue s = io ++ 0x000003#24 := by
  obtain ⟨hcause, hcrc, hdiff, hio⟩ := hinv.errors
  have hidle : s.rx.result ≠ .none → rxBusy s = false := fun h => by simp [rxBusy, hinv.idle_of_result h]
  cases hr : s.rx.result with
  | none =>
    obtain ⟨-, hc, hcomp, hrec, hio⟩ := hinv.noOutcome_of_result hr
    rw [rxStatusValue_of_registers rfl hr hc hcomp hrec hio]
    cases rxBusy s <;> exact .inl (by decide)
  | frame =>
    have hc := hcause (by simp [hr])
    obtain ⟨hcomp, hrec⟩ := hcrc (by simp [hc])
    rw [rxStatusValue_of_registers (hidle (by simp [hr])) hr hc hcomp hrec (hio (by simp [hr]))]
    exact .inl (by decide)
  | transportError =>
    have hc := hcause (by simp [hr])
    obtain ⟨hcomp, hrec⟩ := hcrc (by simp [hc])
    rw [rxStatusValue_of_registers (hidle (by simp [hr])) hr hc hcomp hrec rfl]
    exact .inr (.inr ⟨s.rx.errIo, rfl⟩)
  | invalidPacket =>
    have hbusy : rxBusy s = false := hidle (by simp [hr])
    have hio0 : s.rx.errIo = 0 := hio (by simp [hr])
    cases hc : s.rx.cause with
    | noCause => exact absurd hc (hinv.named hr)
    | badChecksum =>
      have hlow : 0#2 ++ (BitVec.ofBool false ++ (ErrCause.badChecksum.code ++ ParseResult.invalidPacket.code)) =
        0x12#8 := rfl
      rw [rxStatusValue_of_registers hbusy hr hc rfl rfl hio0, hlow]
      exact .inr (.inl ⟨_, _, hdiff hc, rfl⟩)
    | badStart | badVersion | badDirection =>
      obtain ⟨hcomp, hrec⟩ := hcrc (by simp [hc])
      rw [rxStatusValue_of_registers hbusy hr hc hcomp hrec hio0]
      exact .inl (by decide)

/-! ### One token (R107 to R120) -/

/-- RXSEQ's step takes the token at the head of `rxs`. -/
theorem rxStepWith_cons {early : Bool} {s : State} {tok : Token} {rest : List Token} (hp : s.rx.phase ≠ .idle)
    (hrxs : s.rxs = tok :: rest) : rxStepWith early s = rxToken early tok { s with rxs := rest } := by
  have hbusy : rxBusy s = true := by simpa [rxBusy] using hp
  simp only [rxStepWith, if_pos hbusy, hrxs]

/-- The state after the payload byte `b`, where RX_BUF has a place for it (R119). -/
def payloadByteTaken (b : Byte) (s : State) : State :=
  { s with rx := { s.rx with
      buf := Memory.write s.rx.buf s.rx.cnt.toNat b, crc := crc8Update s.rx.crc b, cnt := s.rx.cnt + 1,
      phase := if s.rx.cnt + 1 = s.rx.len then .crc else .payload } }

theorem rxPayload_of_lt (b : Byte) {s : State} (hcnt : s.rx.cnt.toNat < 65535) :
    rxPayload b s = .next (payloadByteTaken b s) := by
  have hstore : storePayloadByte b s = .ok (Memory.write s.rx.buf s.rx.cnt.toNat b) := if_pos hcnt
  simp only [rxPayload, hstore]
  rfl

/-- Index 65535 does not exist (R21; log 9). -/
theorem rxPayload_of_end (b : Byte) {s : State} (hcnt : s.rx.cnt.toNat = 65535) :
    rxPayload b s = .fault (.rxBufIndex 65535) := by
  have hstore : storePayloadByte b s = .error (.rxBufIndex 65535) := by simp [storePayloadByte, rxBufBytes, hcnt]
  simp only [rxPayload, hstore]

/-- R119: a byte written at index `n` is read there, and every other byte is as before. -/
theorem bufByte_write {s t : State} {n : Nat} {b : Byte} (hbuf : t.rx.buf = Memory.write s.rx.buf n b)
    (he : t.bufEpoch = s.bufEpoch) (a : Nat) : t.bufByte a = if a = n then b else s.bufByte a := by
  split
  · next h => exact State.bufByte_of_read (by rw [hbuf, h, Memory.read_write_same])
  · next h => exact State.bufByte_congr (by rw [hbuf, Memory.read_write_other _ _ _ _ h]) he

section Phases

variable {s : State} (early : Bool) (b : Byte)

theorem rxToken_hdr0 (hp : s.rx.phase = .hdr0) : rxToken early (.byte b) s = .next (rxHdr0 early b s) := by
  simp only [rxToken, rxByte, hp]

theorem rxToken_hdr1 (hp : s.rx.phase = .hdr1) : rxToken early (.byte b) s = .next (rxHdr1 early b s) := by
  simp only [rxToken, rxByte, hp]

theorem rxToken_hdr2 (hp : s.rx.phase = .hdr2) : rxToken early (.byte b) s = .next (rxHdr2 b s) := by
  simp only [rxToken, rxByte, hp]

theorem rxToken_flag (hp : s.rx.phase = .flag) : rxToken early (.byte b) s = .next (rxFlag b s) := by
  simp only [rxToken, rxByte, hp]

theorem rxToken_codeLo (hp : s.rx.phase = .codeLo) : rxToken early (.byte b) s = .next (rxCodeLo b s) := by
  simp only [rxToken, rxByte, hp]

theorem rxToken_codeHi (hp : s.rx.phase = .codeHi) : rxToken early (.byte b) s = .next (rxCodeHi b s) := by
  simp only [rxToken, rxByte, hp]

theorem rxToken_lenLo (hp : s.rx.phase = .lenLo) : rxToken early (.byte b) s = .next (rxLenLo b s) := by
  simp only [rxToken, rxByte, hp]

theorem rxToken_lenHi (hp : s.rx.phase = .lenHi) : rxToken early (.byte b) s = .next (rxLenHi b s) := by
  simp only [rxToken, rxByte, hp]

theorem rxToken_payload (hp : s.rx.phase = .payload) : rxToken early (.byte b) s = rxPayload b s := by
  simp only [rxToken, rxByte, hp]

theorem rxToken_crc (hp : s.rx.phase = .crc) : rxToken early (.byte b) s = .next (rxChecksum b s) := by
  simp only [rxToken, rxByte, hp]

/-- R119: while payload bytes are to come, a byte finds its place. -/
theorem rxToken_payload_of_lt (hp : s.rx.phase = if s.rx.cnt = s.rx.len then .crc else .payload)
    (hlt : s.rx.cnt.toNat < s.rx.len.toNat) :
    s.rx.phase ≠ .idle ∧ rxToken early (.byte b) s = .next (payloadByteTaken b s) := by
  rw [if_neg fun h => hlt.ne (congrArg _ h)] at hp
  have hmax : s.rx.cnt.toNat < 65535 := by
    have := s.rx.len.isLt
    omega
  exact ⟨by simp [hp], (rxToken_payload early b hp).trans (rxPayload_of_lt b hmax)⟩

theorem payloadByteTaken_cnt (hlt : s.rx.cnt.toNat < s.rx.len.toNat) :
    (payloadByteTaken b s).rx.cnt.toNat = s.rx.cnt.toNat + 1 :=
  toNat_add_one_of_lt hlt

theorem payloadByteTaken_bufBytes :
    (payloadByteTaken b s).bufBytes 0 (s.rx.cnt.toNat + 1) = s.bufBytes 0 s.rx.cnt.toNat ++ [b] := by
  have hbuf : (payloadByteTaken b s).rx.buf = Memory.write s.rx.buf s.rx.cnt.toNat b := rfl
  exact bufBytes_write hbuf rfl

end Phases

theorem rxHdr0_of_abort {early : Bool} {b : Byte} (h : early = true ∧ b ≠ sof) (s : State) :
    rxHdr0 early b s = raise .badStart { s with rx := { s.rx with h0 := b } } :=
  if_pos h.symm

theorem rxHdr0_of_goOn {early : Bool} {b : Byte} (h : ¬(early = true ∧ b ≠ sof)) (s : State) :
    rxHdr0 early b s = { s with rx := { s.rx with h0 := b, phase := .hdr1 } } :=
  if_neg (mt And.symm h)

theorem rxHdr1_of_abort {early : Bool} {b : Byte} (h : early = true ∧ b ≠ ver) (s : State) :
    rxHdr1 early b s = raise .badVersion { s with rx := { s.rx with h1 := b } } :=
  if_pos h.symm

theorem rxHdr1_of_goOn {early : Bool} {b : Byte} (h : ¬(early = true ∧ b ≠ ver)) (s : State) :
    rxHdr1 early b s = { s with rx := { s.rx with h1 := b, phase := .hdr2 } } :=
  if_neg (mt And.symm h)

theorem rxChecksum_of_eq {b : Byte} {s : State} (h : b = s.rx.crc) : rxChecksum b s = deliverFrame s :=
  if_pos h

theorem rxChecksum_of_ne {b : Byte} {s : State} (h : b ≠ s.rx.crc) :
    rxChecksum b s = raise (.badChecksum s.rx.crc b) s :=
  if_neg h

/-- R111: the header check decides the parser's registers only. -/
theorem rxHdr2_eq (b : Byte) (s : State) :
    rxHdr2 b s = { s with rx :=
      if s.rx.h0 ≠ sof then { s.rx with result := .invalidPacket, cause := .badStart, phase := .idle }
      else if s.rx.h1 ≠ ver then { s.rx with result := .invalidPacket, cause := .badVersion, phase := .idle }
      else if b ≠ dirReq ∧ b ≠ dirRsp then
        { s.rx with result := .invalidPacket, cause := .badDirection, phase := .idle }
      else { s.rx with crc := crcInit, phase := .flag } } := by
  unfold rxHdr2
  split_ifs <;> rfl

/-- A token step looks at the parser's registers only and writes them only (R170). -/
theorem rxToken_withRx (u s : State) (early : Bool) (tok : Token) :
    rxToken early tok { u with rx := s.rx } = onNext (fun t => { u with rx := t.rx }) (rxToken early tok s) := by
  cases tok with
  | ioerr e => rfl
  | byte b =>
    simp only [rxToken, rxByte]
    cases s.rx.phase with
    | hdr0 => simp only [rxHdr0]; split <;> rfl
    | hdr1 => simp only [rxHdr1]; split <;> rfl
    | hdr2 => simp only [rxHdr2]; split_ifs <;> rfl
    | payload =>
      have hstore : storePayloadByte b { u with rx := s.rx } = storePayloadByte b s := rfl
      simp only [rxPayload, hstore]
      cases storePayloadByte b s <;> rfl
    | crc => simp only [rxChecksum]; split <;> rfl
    | idle | flag | codeLo | codeHi | lenLo | lenHi => rfl

/-! ### Runs of RXSEQ (R105, R107) -/

theorem rxTokens_cons_fault {early : Bool} {tok : Token} {s : State} {f : Fault} (ts : List Token)
    (hs : s.rx.phase ≠ .idle) (ht : rxToken early tok s = .fault f) : rxTokens early (tok :: ts) s = .fault f := by
  simp [rxTokens, rxBusy, hs, ht]

theorem rxTokens_of_disabled (early : Bool) (n : Nat) {s : State} (h : rxEnabled s = false) :
    rxTokens early (s.rxs.take n) { s with rxs := s.rxs.drop n } = .next s := by
  by_cases hp : s.rx.phase = .idle
  · rw [rxTokens_of_idle early _ (s := { s with rxs := s.rxs.drop n }) hp]
    simp only [List.take_append_drop]
  · have hrxs : s.rxs = [] := by simpa [rxEnabled, rxBusy, hp] using h
    have hsame : { s with rxs := [] } = s := by rw [← hrxs]
    rw [hrxs, List.take_nil, List.drop_nil]
    exact congrArg Host.Outcome.next hsame

theorem busy_token_of_enabled {s : State} (h : rxEnabled s = true) :
    s.rx.phase ≠ .idle ∧ ∃ tok rest, s.rxs = tok :: rest := by
  obtain ⟨hp, hrxs⟩ : s.rx.phase ≠ .idle ∧ s.rxs ≠ [] := by simpa [rxEnabled, rxBusy] using h
  exact ⟨hp, List.exists_cons_of_ne_nil hrxs⟩

/-- Where RXSEQ has the next `n` turns, a run offers the parser the first `n` tokens of `rxs`. -/
theorem runSteps_rxseq (n : Nat) (s : State) (later : List Turn) :
    runSteps n { s with agenda := List.replicate n (.agent .rxseq) ++ later } =
      rxTokens Config.hdrEarlyAbort (s.rxs.take n) { s with agenda := later, rxs := s.rxs.drop n } := by
  induction n generalizing s with
  | zero => rfl
  | succ n ih =>
    rw [List.replicate_succ, List.cons_append]
    by_cases h : rxEnabled s = true
    · obtain ⟨hp, tok, rest, hrxs⟩ := busy_token_of_enabled h
      have htake : s.rxs.take (n + 1) = tok :: rest.take n := by rw [hrxs, List.take_succ_cons]
      have hdrop : s.rxs.drop (n + 1) = rest.drop n := by rw [hrxs, List.drop_succ_cons]
      rw [htake, hdrop]
      set turns := List.replicate n (Turn.agent .rxseq) ++ later
      have hturn : takeTurn (.agent .rxseq) { s with agenda := turns } =
          rxToken Config.hdrEarlyAbort tok { s with agenda := turns, rxs := rest } :=
        rxStepWith_cons (s := { s with agenda := turns }) hp hrxs
      have hnow := rxToken_withRx { s with agenda := turns, rxs := rest } s Config.hdrEarlyAbort tok
      have hthen := rxToken_withRx { s with agenda := later, rxs := rest.drop n } s Config.hdrEarlyAbort tok
      rcases rxToken_cases Config.hdrEarlyAbort tok s with ⟨regs, ht⟩ | ht
      · rw [ht] at hnow hthen
        calc runSteps (n + 1) { s with agenda := .agent .rxseq :: turns }
            = runSteps n { s with agenda := turns, rxs := rest, rx := regs } :=
              runSteps_succ_agenda rfl (hturn.trans hnow)
          _ = rxTokens Config.hdrEarlyAbort (rest.take n)
                { s with agenda := later, rxs := rest.drop n, rx := regs } :=
              ih { s with rxs := rest, rx := regs }
          _ = _ := (rxTokens_cons _ (s := { s with agenda := later, rxs := rest.drop n }) hp hthen).symm
      · rw [ht] at hnow hthen
        exact (runSteps_succ_fault (s := { s with agenda := .agent .rxseq :: turns }) rfl (hturn.trans hnow)).trans
          (rxTokens_cons_fault _ (s := { s with agenda := later, rxs := rest.drop n }) hp hthen).symm
    · have hoff : rxEnabled s = false := by simpa using h
      rw [rxTokens_of_disabled _ (n + 1) (s := { s with agenda := later }) hoff, ←
        rxTokens_of_disabled Config.hdrEarlyAbort n (s := { s with agenda := later }) hoff, ← ih]
      exact runSteps_succ_agenda rfl (rxStep_of_disabled hoff)

/-! ### Tokens all taken -/

theorem rxToken_next {early : Bool} {tok : Token} {s t : State} (ht : rxToken early tok s = .next t) :
    ∃ regs, t = { s with rx := regs } := by
  rcases rxToken_cases early tok s with ⟨regs, h⟩ | h
  · exact ⟨regs, Host.Outcome.next.inj (ht.symm.trans h)⟩
  · rw [ht] at h
    cases h

/-- RXSEQ takes all the tokens `ts` and does not stop; the parser's registers are then `regs`. -/
def TakesAll (early : Bool) (ts : List Token) (s : State) (regs : RxRegs) : Prop :=
  rxTokens early ts s = .next { s with rx := regs }

theorem TakesAll.nil (early : Bool) (s : State) : TakesAll early [] s s.rx := rfl

/-- All tokens are taken if a parse runs, the first is taken and then the others are. -/
theorem takesAll_cons_iff {early : Bool} {tok : Token} {ts : List Token} {s : State} {regs : RxRegs} :
    TakesAll early (tok :: ts) s regs ↔ s.rx.phase ≠ .idle ∧
      ∃ mid, rxToken early tok s = .next { s with rx := mid } ∧ TakesAll early ts { s with rx := mid } regs := by
  constructor
  · intro h
    by_cases hp : s.rx.phase = .idle
    · rw [TakesAll, rxTokens_of_idle early _ hp] at h
      have hlen := congrArg (fun t : State => t.rxs.length) (Host.Outcome.next.inj h)
      simp at hlen
      omega
    · rcases rxToken_cases early tok s with ⟨mid, ht⟩ | ht
      · exact ⟨hp, mid, ht, (rxTokens_cons ts hp ht).symm.trans h⟩
      · rw [TakesAll, rxTokens_cons_fault ts hp ht] at h
        cases h
  · rintro ⟨hp, mid, ht, h⟩
    exact (rxTokens_cons ts hp ht).trans h

theorem TakesAll.cons {early : Bool} {tok : Token} {ts : List Token} {s t : State} {regs : RxRegs}
    (hp : s.rx.phase ≠ .idle) (ht : rxToken early tok s = .next t) (h : TakesAll early ts t regs) :
    TakesAll early (tok :: ts) s regs := by
  obtain ⟨mid, rfl⟩ := rxToken_next ht
  exact takesAll_cons_iff.mpr ⟨hp, mid, ht, h⟩

/-- Behind tokens that are all taken, RXSEQ goes on with those that follow. -/
theorem TakesAll.rxTokens_append {early : Bool} {ts : List Token} {s : State} {mid : RxRegs}
    (h : TakesAll early ts s mid) (us : List Token) :
    rxTokens early (ts ++ us) s = rxTokens early us { s with rx := mid } := by
  induction ts generalizing s with
  | nil => exact congrArg (rxTokens early us) (Host.Outcome.next.inj h)
  | cons tok ts ih =>
    obtain ⟨hp, first, ht, hts⟩ := takesAll_cons_iff.mp h
    exact (rxTokens_cons (ts ++ us) hp ht).trans (ih hts)

theorem TakesAll.append {early : Bool} {ts us : List Token} {s : State} {mid regs : RxRegs}
    (h : TakesAll early ts s mid) (h' : TakesAll early us { s with rx := mid } regs) :
    TakesAll early (ts ++ us) s regs :=
  (h.rxTokens_append us).trans h'

/-- What the parser makes of tokens it takes depends on its registers only. -/
theorem TakesAll.withRx {early : Bool} {ts : List Token} {s : State} {regs : RxRegs} (h : TakesAll early ts s regs)
    (u : State) : TakesAll early ts { u with rx := s.rx } regs := by
  induction ts generalizing s with
  | nil =>
    have hs : s.rx = regs := congrArg State.rx (Host.Outcome.next.inj h)
    rw [hs]
    exact TakesAll.nil early { u with rx := regs }
  | cons tok ts ih =>
    obtain ⟨hp, mid, ht, hts⟩ := takesAll_cons_iff.mp h
    refine .cons hp ?_ (ih hts)
    rw [rxToken_withRx, ht]
    rfl

/-- A parse that ends with the last of some tokens, or not at all, still runs after any smaller number of them. -/
theorem TakesAll.busy_of_take {early : Bool} {ts : List Token} {s : State} {regs : RxRegs}
    (h : TakesAll early ts s regs) {k : Nat} (hk : k < ts.length) :
    ∃ mid, TakesAll early (ts.take k) s mid ∧ mid.phase ≠ .idle := by
  induction ts generalizing s k with
  | nil => exact absurd hk (Nat.not_lt_zero k)
  | cons tok ts ih =>
    obtain ⟨hp, first, ht, hts⟩ := takesAll_cons_iff.mp h
    cases k with
    | zero => exact ⟨s.rx, .nil early s, hp⟩
    | succ k =>
      obtain ⟨mid, htake, hmid⟩ := ih hts (Nat.lt_of_succ_lt_succ hk)
      exact ⟨mid, .cons hp ht htake, hmid⟩

/-- Turns of RXSEQ that take the first tokens of `rxs` leave the others there. -/
theorem TakesAll.runSteps_rxseq {n : Nat} {s : State} {regs : RxRegs}
    (h : TakesAll Config.hdrEarlyAbort (s.rxs.take n) s regs) (later : List Turn) :
    runSteps n { s with agenda := List.replicate n (.agent .rxseq) ++ later } =
      .next { s with agenda := later, rxs := s.rxs.drop n, rx := regs } :=
  (Machine.runSteps_rxseq n s later).trans (h.withRx { s with agenda := later, rxs := s.rxs.drop n })

/-- A parse that ends with the last of its first `n` tokens has not ended in any earlier turn. -/
theorem TakesAll.busy_before {n : Nat} {s : State} {regs : RxRegs}
    (h : TakesAll Config.hdrEarlyAbort (s.rxs.take n) s regs) (hn : n ≤ s.rxs.length) (later : List Turn) {k : Nat}
    (hk : k < n) :
    ∃ u, runSteps k { s with agenda := List.replicate n (.agent .rxseq) ++ later } = .next u ∧
      u.rx.phase ≠ .idle := by
  obtain ⟨mid, hmid, hbusy⟩ := h.busy_of_take (k := k) (by rw [List.length_take_of_le hn]; exact hk)
  rw [List.take_take, min_eq_left hk.le] at hmid
  have hsplit : List.replicate n (Turn.agent .rxseq) =
      List.replicate k (Turn.agent .rxseq) ++ List.replicate (n - k) (Turn.agent .rxseq) := by
    rw [List.replicate_append_replicate, Nat.add_sub_of_le hk.le]
  have hrun := hmid.runSteps_rxseq (List.replicate (n - k) (Turn.agent .rxseq) ++ later)
  rw [hsplit, List.append_assoc]
  exact ⟨_, hrun, hbusy⟩

/-! ### A whole frame from R_HDR0 (R105, R127) -/

/-- Some bytes written one after the other from index `i` on. -/
def Memory.writeFrom : Memory → Nat → List Byte → Memory
  | m, _, [] => m
  | m, i, b :: bs => Memory.writeFrom (Memory.write m i b) (i + 1) bs

theorem Memory.read_writeFrom_outside (m : Memory) (i : Nat) (bs : List Byte) {j : Nat}
    (hj : j < i ∨ i + bs.length ≤ j) : Memory.read (Memory.writeFrom m i bs) j = Memory.read m j := by
  induction bs generalizing m i with
  | nil => rfl
  | cons b bs ih =>
    rw [List.length_cons] at hj
    rw [Memory.writeFrom, ih _ _ (by omega), Memory.read_write_other _ _ _ _ (by omega)]

theorem Memory.read_writeFrom_inside (m : Memory) (i : Nat) (bs : List Byte) {k : Nat} (hk : k < bs.length) :
    Memory.read (Memory.writeFrom m i bs) (i + k) = some bs[k] := by
  induction bs generalizing m i k with
  | nil => exact absurd hk (Nat.not_lt_zero k)
  | cons b bs ih =>
    cases k with
    | zero => rw [Memory.writeFrom, Memory.read_writeFrom_outside _ _ _ (by omega)]; exact Memory.read_write_same m i b
    | succ k =>
      have hindex : i + (k + 1) = i + 1 + k := by omega
      rw [Memory.writeFrom, hindex]
      exact ih _ _ (Nat.lt_of_succ_lt_succ hk)

/-- The parser's registers before the checksum byte of a frame met at offset 0. -/
def frameRegs (flag : Byte) (code : Half) (p : List Byte) (rx : RxRegs) : RxRegs :=
  { rx with
    phase := .crc, h0 := sof, h1 := ver, code := code, len := BitVec.ofNat 16 p.length,
    cnt := BitVec.ofNat 16 p.length, crc := frameChecksum flag code p, buf := Memory.writeFrom rx.buf 0 p }

theorem frameRegs_crc (flag : Byte) (code : Half) (p : List Byte) (rx : RxRegs) :
    (frameRegs flag code p rx).crc = frameChecksum flag code p := by
  simp only [frameRegs]

/-- The parser's registers behind a header that is right (R109 to R111). -/
def headerRegs (rx : RxRegs) : RxRegs := { rx with h0 := sof, h1 := ver, crc := crcInit, phase := .flag }

/-- R109 to R111: the three header bytes of either direction. -/
theorem takesAll_header (early : Bool) {dir : Byte} (hdir : dir = dirReq ∨ dir = dirRsp) {s : State}
    (hp : s.rx.phase = .hdr0) :
    TakesAll early ([sof, ver, dir].map .byte) s (headerRegs s.rx) := by
  have hdir' : ¬(dir ≠ dirReq ∧ dir ≠ dirRsp) := by tauto
  refine .cons (by simp [hp]) ((rxToken_hdr0 early sof hp).trans (congrArg _ (rxHdr0_of_goOn (by simp) s))) ?_
  refine .cons nofun ((rxToken_hdr1 early ver rfl).trans (congrArg _ (rxHdr1_of_goOn (by simp) _))) ?_
  refine .cons nofun ((rxToken_hdr2 early dir rfl).trans (congrArg _ (rxHdr2_eq dir _))) ?_
  simp only [hdir', ne_eq, not_true, if_false]
  exact .nil early _

/-- The parser's registers behind the length field (R114 to R118). -/
def fixedRegs (flag : Byte) (code len : Half) (rx : RxRegs) : RxRegs :=
  { rx with
    code := code, len := len, cnt := 0, crc := crc8From rx.crc (bodyHead flag code len),
    phase := if len = 0 then .crc else .payload }

/-- R114 to R118: the five fixed fields, one after the other. -/
theorem rxLenHi_of_fixed (flag c0 c1 n0 n1 : Byte) (s : State) :
    rxLenHi n1 (rxLenLo n0 (rxCodeHi c1 (rxCodeLo c0 (rxFlag flag s)))) =
      { s with rx := fixedRegs flag (halfOfBytes c0 c1) (halfOfBytes n0 n1) s.rx } := by
  simp only [rxLenHi, rxLenLo, rxCodeHi, rxCodeLo, rxFlag, fixedRegs, bodyHead, bytesOfHalf_halfOfBytes,
    loByte_halfOfBytes]
  rfl

theorem takesAll_fixed (early : Bool) (flag : Byte) (code len : Half) {s : State} (hp : s.rx.phase = .flag) :
    TakesAll early ((bodyHead flag code len).map .byte) s (fixedRegs flag code len s.rx) := by
  refine .cons (by simp [hp]) (rxToken_flag early flag hp) ?_
  refine .cons nofun (rxToken_codeLo early (loByte code) rfl) ?_
  refine .cons nofun (rxToken_codeHi early (hiByte code) rfl) ?_
  refine .cons nofun (rxToken_lenLo early (loByte len) rfl) ?_
  refine .cons nofun (rxToken_lenHi early (hiByte len) rfl) ?_
  rw [rxLenHi_of_fixed, halfOfBytes_lo_hi, halfOfBytes_lo_hi]
  exact .nil early _

/-- R119: with RX_CNT payload bytes taken, the others up to RX_LEN. -/
theorem takesAll_payload (early : Bool) {p : List Byte} {s : State}
    (hp : s.rx.phase = if s.rx.cnt = s.rx.len then .crc else .payload)
    (hleft : s.rx.cnt.toNat + p.length = s.rx.len.toNat) :
    TakesAll early (p.map .byte) s
      { s.rx with buf := Memory.writeFrom s.rx.buf s.rx.cnt.toNat p, crc := crc8From s.rx.crc p, cnt := s.rx.len,
                  phase := .crc } := by
  induction p generalizing s with
  | nil =>
    have hcnt : s.rx.cnt = s.rx.len := BitVec.eq_of_toNat_eq hleft
    rw [if_pos hcnt] at hp
    rw [← hcnt, ← hp]
    exact .nil early s
  | cons b p ih =>
    rw [List.length_cons] at hleft
    have hlt : s.rx.cnt.toNat < s.rx.len.toNat := by omega
    obtain ⟨hbusy, ht⟩ := rxToken_payload_of_lt early b hp hlt
    have hcnt := payloadByteTaken_cnt b hlt
    have hleft' : (payloadByteTaken b s).rx.cnt.toNat + p.length = s.rx.len.toNat := by omega
    have hrest := ih (s := payloadByteTaken b s) rfl hleft'
    rw [hcnt] at hrest
    exact .cons hbusy ht hrest

theorem takesAll_beforeChecksum (early : Bool) {dir : Byte} (hdir : dir = dirReq ∨ dir = dirRsp) (flag : Byte)
    (code : Half) {p : List Byte} (hlen : p.length ≤ 65535) {s : State} (hp : s.rx.phase = .hdr0) :
    TakesAll early (([sof, ver, dir] ++ frameBody flag code p).map .byte) s (frameRegs flag code p s.rx) := by
  have hheader := takesAll_header early hdir hp
  have hfixed := takesAll_fixed early flag code (BitVec.ofNat 16 p.length) (s := { s with rx := headerRegs s.rx }) rfl
  have hpayload := takesAll_payload early (p := p)
    (s := { s with rx := fixedRegs flag code (BitVec.ofNat 16 p.length) (headerRegs s.rx) })
    (by simp only [fixedRegs, eq_comm]) (by simp [fixedRegs, lengthField_toNat hlen])
  have hregs : frameRegs flag code p s.rx = { fixedRegs flag code (BitVec.ofNat 16 p.length) (headerRegs s.rx) with
      buf := Memory.writeFrom s.rx.buf 0 p, cnt := BitVec.ofNat 16 p.length, phase := .crc,
      crc := crc8From (crc8From crcInit (bodyHead flag code (BitVec.ofNat 16 p.length))) p } := by
    simp only [frameRegs, fixedRegs, headerRegs, frameChecksum, crc8, frameBody, crc8From_append]
  rw [hregs, frameBody, List.map_append, List.map_append]
  exact hheader.append (hfixed.append hpayload)

/-- R105: what a frame of either direction, met at offset 0, comes to is up to its checksum byte. -/
theorem exec_frame_of_hdr0 {i : Instr} {flag c : Byte} {code : Half} {p : List Byte} {s : State}
    (hi : i = .frameReq flag code p c ∨ i = .frameRsp flag code p c) (hlen : p.length ≤ 65535)
    (hp : s.rx.phase = .hdr0) :
    exec i s = .next (rxChecksum c { s with rx := frameRegs flag code p s.rx }) := by
  have hrun : ∀ dir, dir = dirReq ∨ dir = dirRsp →
      receiveFrame (frameBytes dir flag code p c) s =
        .next (rxChecksum c { s with rx := frameRegs flag code p s.rx }) := by
    intro dir hdir
    have htaken := takesAll_beforeChecksum Config.hdrEarlyAbort hdir flag code hlen hp
    rw [receiveFrame, frameBytes, List.map_append, htaken.rxTokens_append]
    exact (rxTokens_singleton _ _ (by simp [frameRegs])).trans (rxToken_crc _ c rfl)
  rcases hi with rfl | rfl
  · exact hrun dirReq (.inl rfl)
  · exact hrun dirRsp (.inr rfl)

theorem exec_frame_of_rightChecksum {i : Instr} {flag c : Byte} {code : Half} {p : List Byte} {s : State}
    (hi : i = .frameReq flag code p c ∨ i = .frameRsp flag code p c) (hlen : p.length ≤ 65535)
    (hp : s.rx.phase = .hdr0) (hc : c = frameChecksum flag code p) :
    exec i s = .next (deliverFrame { s with rx := frameRegs flag code p s.rx }) := by
  rw [exec_frame_of_hdr0 hi hlen hp, rxChecksum_of_eq (by rw [frameRegs_crc, hc])]

theorem exec_frame_of_wrongChecksum {i : Instr} {flag c : Byte} {code : Half} {p : List Byte} {s : State}
    (hi : i = .frameReq flag code p c ∨ i = .frameRsp flag code p c) (hlen : p.length ≤ 65535)
    (hp : s.rx.phase = .hdr0) (hc : c ≠ frameChecksum flag code p) :
    exec i s =
      .next (raise (.badChecksum (frameChecksum flag code p) c) { s with rx := frameRegs flag code p s.rx }) := by
  rw [exec_frame_of_hdr0 hi hlen hp, rxChecksum_of_ne (by rw [frameRegs_crc]; exact hc), frameRegs_crc]

/-- R121: the first bytes of RX_BUF are then the payload. -/
theorem bufBytes_writeFrom {s t : State} {p : List Byte} (hbuf : t.rx.buf = Memory.writeFrom s.rx.buf 0 p) :
    t.bufBytes 0 p.length = p := by
  refine List.ext_getElem (State.bufBytes_length t 0 p.length) fun k _ hk => ?_
  simp only [State.bufBytes, List.getElem_map, List.getElem_range]
  exact State.bufByte_of_read (by rw [hbuf, Memory.read_writeFrom_inside _ _ _ hk])

theorem bufByte_writeFrom {s t : State} {p : List Byte} (hbuf : t.rx.buf = Memory.writeFrom s.rx.buf 0 p)
    (he : t.bufEpoch = s.bufEpoch) {a : Nat} (ha : p.length ≤ a) : t.bufByte a = s.bufByte a :=
  State.bufByte_congr (by rw [hbuf, Memory.read_writeFrom_outside _ _ _ (by omega)]) he

/-! ### The function of R105, one token at a time -/

/-- A result with `k` tokens more consumed. -/
def consumedMore (k : Nat) (r : ParseEnd × Nat) : ParseEnd × Nat := (r.1, r.2 + k)

@[simp] theorem consumedMore_mk (k : Nat) (r : ParseEnd) (n : Nat) : consumedMore k (r, n) = (r, n + k) := rfl

@[simp] theorem consumedMore_comp (j k : Nat) : consumedMore j ∘ consumedMore k = consumedMore (k + j) := by
  funext r
  simp [consumedMore, Nat.add_assoc]

/-- Some tokens of which the first must be a byte; `k` says what that byte and the others come to. With no token the
parse waits, and an error token ends it. -/
def onByte (k : Byte → List Token → Option (ParseEnd × Nat)) : List Token → Option (ParseEnd × Nat)
  | [] => none
  | .ioerr e :: _ => some (.failed (.transportError e), 1)
  | .byte b :: ts => (k b ts).map (consumedMore 1)

/-- The parse fails with no further token consumed. -/
def failsWith (x : ParseFailure) (_ : List Token) : Option (ParseEnd × Nat) := some (.failed x, 0)

/-- With the payload bytes `p` taken and `m` to come: those and the checksum byte. -/
def payloadLeft (flag : Byte) (code len : Half) : Nat → List Byte → List Token → Option (ParseEnd × Nat)
  | 0, p => onByte fun c _ => some (parseVerdict flag code len p c, 0)
  | m + 1, p => onByte fun b => payloadLeft flag code len m (p ++ [b])

/-- Behind the header: flag, code, length, payload and checksum byte. -/
def fixedLeft : List Token → Option (ParseEnd × Nat) :=
  onByte fun flag => onByte fun c0 => onByte fun c1 => onByte fun n0 => onByte fun n1 =>
    payloadLeft flag (halfOfBytes c0 c1) (halfOfBytes n0 n1) (halfOfBytes n0 n1).toNat []

/-- With the first two header bytes taken. -/
def directionLeft (b0 b1 : Byte) : List Token → Option (ParseEnd × Nat) :=
  onByte fun b2 =>
    if b0 ≠ sof then failsWith .badStart
    else if b1 ≠ ver then failsWith .badVersion
    else if b2 ≠ dirReq ∧ b2 ≠ dirRsp then failsWith .badDirection
    else fixedLeft

/-- From frame offset 0 on, for either setting (R112). -/
def frameLeft (early : Bool) : List Token → Option (ParseEnd × Nat) :=
  onByte fun b0 =>
    if early = true ∧ b0 ≠ sof then failsWith .badStart
    else onByte fun b1 =>
      if early = true ∧ b1 ≠ ver then failsWith .badVersion
      else directionLeft b0 b1

/-- R105, third block: an error token among the payload and the checksum byte ends the parse; with all of those bytes
there, the verdict does. -/
theorem payloadLeft_eq (flag : Byte) (code len : Half) (m : Nat) (p : List Byte) (v : List Token) :
    payloadLeft flag code len m p v =
      ((firstError (v.take (m + 1))).map fun r => (.failed (.transportError r.2), r.1 + 1)).or
        ((bytesOf (v.drop m)).head?.map fun c =>
          (parseVerdict flag code len (p ++ bytesOf (v.take m)) c, m + 1)) := by
  induction m generalizing p v with
  | zero =>
    match v with
    | [] => rfl
    | .ioerr e :: v => rfl
    | .byte b :: v => simp [payloadLeft, onByte, firstError, bytesOf]
  | succ m ih =>
    match v with
    | [] => rfl
    | .ioerr e :: v => rfl
    | .byte b :: v =>
      simp only [payloadLeft, onByte, ih, List.take_succ_cons, List.drop_succ_cons, firstError, bytesOf,
        List.append_assoc, List.singleton_append]
      cases firstError (v.take (m + 1)) with
      | some r => rfl
      | none => cases bytesOf (v.drop m) <;> rfl

theorem parsePayload_eq (flag : Byte) (code len : Half) (v : List Token) :
    parsePayload flag code len v = (payloadLeft flag code len len.toNat [] v).map (consumedMore 8) := by
  rw [payloadLeft_eq]
  unfold parsePayload
  cases firstError (v.take (len.toNat + 1)) with
  | some r =>
    simp only [Option.map_some, Option.some_or, consumedMore_mk, Option.some.injEq, Prod.mk.injEq, true_and]
    omega
  | none =>
    cases bytesOf (v.drop len.toNat) with
    | nil => rfl
    | cons c _ =>
      simp only [List.head?_cons, Option.map_some, Option.map_none, Option.none_or, consumedMore_mk, List.nil_append,
        Option.some.injEq, Prod.mk.injEq, true_and]
      omega

theorem parseFixed_eq (u : List Token) : parseFixed u = (fixedLeft u).map (consumedMore 3) := by
  match u with
  | [] | [.byte _] | [.byte _, .byte _] | [.byte _, .byte _, .byte _] | [.byte _, .byte _, .byte _, .byte _] => rfl
  | .ioerr _ :: _ | .byte _ :: .ioerr _ :: _ | .byte _ :: .byte _ :: .ioerr _ :: _
  | .byte _ :: .byte _ :: .byte _ :: .ioerr _ :: _ | .byte _ :: .byte _ :: .byte _ :: .byte _ :: .ioerr _ :: _ => rfl
  | .byte f :: .byte c0 :: .byte c1 :: .byte n0 :: .byte n1 :: v =>
    have hleft : parseFixed (.byte f :: .byte c0 :: .byte c1 :: .byte n0 :: .byte n1 :: v) =
      parsePayload f (halfOfBytes c0 c1) (halfOfBytes n0 n1) v := rfl
    rw [hleft, parsePayload_eq]
    simp [fixedLeft, onByte]

/-- R105, R112: the function of the tokens, each judged as it comes. -/
theorem parseTokens_true_eq (t : List Token) : parseTokens true t = frameLeft true t := by
  match t with
  | [] | .ioerr _ :: _ => rfl
  | .byte b0 :: t =>
    by_cases h0 : b0 = sof
    case neg => simp [parseTokens, headerEarly, frameLeft, onByte, failsWith, h0]
    subst h0
    match t with
    | [] | .ioerr _ :: _ => rfl
    | .byte b1 :: t =>
      by_cases h1 : b1 = ver
      case neg => simp [parseTokens, headerEarly, frameLeft, onByte, failsWith, h1]
      subst h1
      match t with
      | [] | .ioerr _ :: _ => rfl
      | .byte b2 :: t =>
        by_cases h2 : b2 ≠ dirReq ∧ b2 ≠ dirRsp
        · simp [parseTokens, headerEarly, frameLeft, directionLeft, onByte, failsWith, h2]
        · simp [parseTokens, headerEarly, frameLeft, directionLeft, onByte, h2, parseFixed_eq]

/-- R105: the function of the tokens, the header judged when it is whole. -/
theorem parseTokens_false_eq (t : List Token) : parseTokens false t = frameLeft false t := by
  match t with
  | [] | [.byte _] | [.byte _, .byte _] => rfl
  | .ioerr _ :: _ | .byte _ :: .ioerr _ :: _ | .byte _ :: .byte _ :: .ioerr _ :: _ => rfl
  | .byte b0 :: .byte b1 :: .byte b2 :: t =>
    by_cases h0 : b0 = sof
    case neg => simp [parseTokens, headerLate, firstError, frameLeft, directionLeft, onByte, failsWith, h0]
    by_cases h1 : b1 = ver
    case neg => simp [parseTokens, headerLate, firstError, frameLeft, directionLeft, onByte, failsWith, h0, h1]
    by_cases h2 : b2 ≠ dirReq ∧ b2 ≠ dirRsp
    · simp [parseTokens, headerLate, firstError, frameLeft, directionLeft, onByte, failsWith, h0, h1, h2]
    · simp [parseTokens, headerLate, firstError, frameLeft, directionLeft, onByte, h0, h1, h2, parseFixed_eq]

theorem parseTokens_eq_frameLeft (early : Bool) (t : List Token) : parseTokens early t = frameLeft early t := by
  cases early with
  | true => exact parseTokens_true_eq t
  | false => exact parseTokens_false_eq t

/-! ### RXSEQ's steps against that function (R105) -/

/-- What RXSEQ makes of the tokens `ts` from the state `s` on is the given result: the parse ends with it behind the
tokens it consumes, or all tokens are taken and the parse still runs. -/
def ParsesTo (early : Bool) (s : State) (ts : List Token) : Option (ParseEnd × Nat) → Prop
  | some (r, n) => n ≤ ts.length ∧
      ∃ regs, TakesAll early (ts.take n) s regs ∧ regs.phase = .idle ∧ r.heldBy { s with rx := regs }
  | none => ∃ regs, TakesAll early ts s regs ∧ regs.phase ≠ .idle ∧ regs.result = .none

theorem ParsesTo.ended {early : Bool} {s : State} {r : ParseEnd} (hp : s.rx.phase = .idle) (hr : r.heldBy s)
    (ts : List Token) : ParsesTo early s ts (some (r, 0)) :=
  ⟨Nat.zero_le _, s.rx, .nil early s, hp, hr⟩

theorem ParsesTo.cons {early : Bool} {s t : State} {tok : Token} {ts : List Token}
    {result : Option (ParseEnd × Nat)} (hp : s.rx.phase ≠ .idle) (ht : rxToken early tok s = .next t)
    (h : ParsesTo early t ts result) : ParsesTo early s (tok :: ts) (result.map (consumedMore 1)) := by
  obtain ⟨mid, rfl⟩ := rxToken_next ht
  match result with
  | none =>
    obtain ⟨regs, htake, hrest⟩ := h
    exact ⟨regs, .cons hp ht htake, hrest⟩
  | some (r, n) =>
    obtain ⟨hn, regs, htake, hrest⟩ := h
    exact ⟨Nat.succ_le_succ hn, regs, .cons hp ht htake, hrest⟩

/-- Every failure leaves its own registers (R160). -/
theorem heldBy_raise {s : State} (ho : NoOutcome s.rx) (x : ParseFailure) : (ParseEnd.failed x).heldBy (raise x s) := by
  obtain ⟨-, hc, hcomp, hrec, hio⟩ := ho
  cases x <;> simp [ParseEnd.heldBy, raise, hc, hcomp, hrec, hio]

theorem ParsesTo.failed {early : Bool} {s : State} (ho : NoOutcome s.rx) (x : ParseFailure) (ts : List Token) :
    ParsesTo early (raise x s) ts (failsWith x ts) :=
  .ended (raise_rx_phase x s) (heldBy_raise ho x) ts

/-- A running parse waits without a token, ends with an error token and otherwise takes the byte. -/
theorem ParsesTo.next_byte {early : Bool} {s : State} {k : Byte → List Token → Option (ParseEnd × Nat)}
    (hp : s.rx.phase ≠ .idle) (ho : NoOutcome s.rx)
    (h : ∀ b, ∃ t, rxToken early (.byte b) s = .next t ∧ ∀ ts, ParsesTo early t ts (k b ts)) (ts : List Token) :
    ParsesTo early s ts (onByte k ts) := by
  match ts with
  | [] => exact ⟨s.rx, .nil early s, hp, ho.1⟩
  | .ioerr e :: ts => exact .cons (tok := .ioerr e) hp rfl (.failed ho (.transportError e) ts)
  | .byte b :: ts =>
    obtain ⟨t, ht, hk⟩ := h b
    exact .cons hp ht (hk ts)

/-- R120: the checksum byte, the checksum of the body being in RX_CRC and the payload in RX_BUF. -/
theorem ParsesTo.checksum {early : Bool} {flag : Byte} {p : List Byte} {s : State} (ho : NoOutcome s.rx)
    (hlen : s.rx.len.toNat = p.length) (hcrc : crc8 (bodyHead flag s.rx.code s.rx.len ++ p) = s.rx.crc)
    (hbuf : s.bufBytes 0 p.length = p) (c : Byte) (ts : List Token) :
    ParsesTo early (rxChecksum c s) ts (some (parseVerdict flag s.rx.code s.rx.len p c, 0)) := by
  rw [parseVerdict, hcrc]
  by_cases hc : c = s.rx.crc
  · rw [if_neg (not_not.mpr hc), rxChecksum_of_eq hc]
    obtain ⟨-, hcause, hcomp, hrec, hio⟩ := ho
    have hheld : (ParseEnd.frame s.rx.code p).heldBy (deliverFrame s) :=
      ⟨rfl, rfl, hlen, hbuf, rfl, hcause, hcomp, hrec, hio⟩
    exact .ended rfl hheld ts
  · rw [if_pos hc, rxChecksum_of_ne hc]
    exact .failed ho _ ts

/-- R119, R120: the rest of the payload and the checksum byte, RX_CNT payload bytes being taken. -/
theorem ParsesTo.from_payload {early : Bool} {flag : Byte} {m : Nat} {p : List Byte} {s : State} (ho : NoOutcome s.rx)
    (hp : s.rx.phase = if s.rx.cnt = s.rx.len then .crc else .payload) (hleft : s.rx.cnt.toNat + m = s.rx.len.toNat)
    (hcnt : s.rx.cnt.toNat = p.length) (hcrc : crc8 (bodyHead flag s.rx.code s.rx.len ++ p) = s.rx.crc)
    (hbuf : s.bufBytes 0 p.length = p) (ts : List Token) :
    ParsesTo early s ts (payloadLeft flag s.rx.code s.rx.len m p ts) := by
  induction m generalizing p s ts with
  | zero =>
    rw [if_pos (BitVec.eq_of_toNat_eq hleft)] at hp
    have hlen : s.rx.len.toNat = p.length := by omega
    exact .next_byte (by simp [hp]) ho (fun c => ⟨_, rxToken_crc early c hp, .checksum ho hlen hcrc hbuf c⟩) ts
  | succ m ih =>
    have hlt : s.rx.cnt.toNat < s.rx.len.toNat := by omega
    refine .next_byte (rxToken_payload_of_lt early 0 hp hlt).1 ho
      (fun b => ⟨_, (rxToken_payload_of_lt early b hp hlt).2, ?_⟩) ts
    have hcnt' := payloadByteTaken_cnt b hlt
    have hlen : (p ++ [b]).length = s.rx.cnt.toNat + 1 := by simp [hcnt]
    refine ih (s := payloadByteTaken b s) ho rfl ?left ?count ?crc ?bytes
    case left =>
      have hkept : (payloadByteTaken b s).rx.len = s.rx.len := rfl
      rw [hcnt', hkept]
      omega
    case count => rw [hcnt', hlen]
    case crc =>
      rw [← List.append_assoc, payloadByteTaken, crc8_concat, hcrc]
    case bytes => rw [hlen, payloadByteTaken_bufBytes, hcnt, hbuf]

/-- R114 to R120: from the flag byte on. -/
theorem ParsesTo.from_flag {early : Bool} {s : State} (ho : NoOutcome s.rx) (hp : s.rx.phase = .flag)
    (hcrc : s.rx.crc = crcInit) (ts : List Token) : ParsesTo early s ts (fixedLeft ts) := by
  refine .next_byte (by simp [hp]) ho (fun flag => ⟨_, rxToken_flag early flag hp, ?_⟩) ts
  refine .next_byte nofun ho fun c0 => ⟨_, rxToken_codeLo early c0 rfl, ?_⟩
  refine .next_byte nofun ho fun c1 => ⟨_, rxToken_codeHi early c1 rfl, ?_⟩
  refine .next_byte nofun ho fun n0 => ⟨_, rxToken_lenLo early n0 rfl, ?_⟩
  refine .next_byte nofun ho fun n1 => ⟨_, rxToken_lenHi early n1 rfl, ?_⟩
  rw [rxLenHi_of_fixed, fixedRegs, hcrc]
  intro ts
  refine .from_payload (p := []) ?free ?phase ?left ?count ?crc ?bytes ts
  case free => exact ho
  case phase => simp only [eq_comm]
  case left => exact Nat.zero_add _
  case count => rfl
  case crc => rw [List.append_nil]; rfl
  case bytes => rfl

/-- R109 to R120, from frame offset 0 on, for either setting. -/
theorem ParsesTo.from_hdr0 {early : Bool} {s : State} (ho : NoOutcome s.rx) (hp : s.rx.phase = .hdr0)
    (ts : List Token) : ParsesTo early s ts (frameLeft early ts) := by
  refine .next_byte (by simp [hp]) ho (fun b0 => ⟨_, rxToken_hdr0 early b0 hp, ?_⟩) ts
  by_cases h0 : early = true ∧ b0 ≠ sof
  · rw [if_pos h0, rxHdr0_of_abort h0]
    exact fun ts => .failed (by exact ho) _ ts
  rw [if_neg h0, rxHdr0_of_goOn h0]
  refine .next_byte nofun ho fun b1 => ⟨_, rxToken_hdr1 early b1 rfl, ?_⟩
  by_cases h1 : early = true ∧ b1 ≠ ver
  · rw [if_pos h1, rxHdr1_of_abort h1]
    exact fun ts => .failed (by exact ho) _ ts
  rw [if_neg h1, rxHdr1_of_goOn h1]
  refine .next_byte nofun ho fun b2 => ⟨_, rxToken_hdr2 early b2 rfl, ?_⟩
  unfold rxHdr2
  split_ifs
  case neg => exact .from_flag ho rfl rfl
  all_goals exact fun ts => .failed (by exact ho) _ ts

end Sys2Proof.Machine

namespace Sys2Proof

open Sys2Proof.Machine

/-! ### The statements of the family -/

/-- Settles O9: both sides offer the parser the frame's tokens, the rest of `rxs` standing behind them. -/
theorem frameTurnIsTokenSteps : Obligations.FrameTurnIsTokenSteps := by
  intro s i bytes rest later hfits henc hrxs
  have hframe : step { s with agenda := .frame :: later } = exec i { s with agenda := later, rxs := rest } :=
    frameStep_of_encode (s := { s with agenda := later }) hfits henc hrxs
  rw [hframe, runSteps_rxseq, hrxs, ← List.length_map (f := Token.byte), List.take_left, List.drop_left]
  cases i with
  | frameReq flag code payload c | frameRsp flag code payload c =>
    cases henc
    rfl
  | _ => cases henc

/-- Settles O30: the function is taken one token at a time, as RXSEQ takes the tokens; a parse without a result is one
that still runs. -/
theorem parserComputesReference : Obligations.ParserComputesReference := by
  intro s later hp hr hc hcomp hrec hio
  have hparse : ParsesTo Config.hdrEarlyAbort s s.rxs (parseTokens Config.hdrEarlyAbort s.rxs) := by
    rw [parseTokens_eq_frameLeft]
    exact .from_hdr0 ⟨hr, hc, hcomp, hrec, hio⟩ hp s.rxs
  cases hresult : parseTokens Config.hdrEarlyAbort s.rxs with
  | some result =>
    rw [hresult] at hparse
    obtain ⟨hn, regs, htake, hidle, hheld⟩ := hparse
    exact ⟨hn, regs, htake.runSteps_rxseq later, hidle, hheld, fun k hk => htake.busy_before hn later hk⟩
  | none =>
    rw [hresult] at hparse
    obtain ⟨regs, htake, hbusy, hnone⟩ := hparse
    rw [← List.take_length (l := s.rxs)] at htake
    refine ⟨regs, ?_, hbusy, hnone⟩
    rw [htake.runSteps_rxseq later, List.drop_length]

/-- Settles O31: the checksum byte is the one RX_CRC holds behind the payload. -/
theorem rightFrameIsDelivered : Obligations.RightFrameIsDelivered := by
  intro s flag code p i hlen hp hi
  refine ⟨_, exec_frame_of_rightChecksum hi hlen hp rfl, ?registers, bufBytes_writeFrom (s := s) rfl,
    fun a ha => ?kept⟩
  case registers =>
    simp only [deliverFrame, frameRegs]
    rfl
  case kept => refine bufByte_writeFrom (s := s) ?_ ?_ ha <;> rfl

/-- Settles O32: any other checksum byte is reported beside the one RX_CRC holds. -/
theorem wrongChecksumIsReported : Obligations.WrongChecksumIsReported := by
  intro s flag code p c i hlen hp hc hi
  refine ⟨_, exec_frame_of_wrongChecksum hi hlen hp hc, ?registers, fun a ha => ?kept⟩
  case registers =>
    simp only [raise, frameRegs]
    rfl
  case kept => refine bufByte_writeFrom (s := s) ?_ ?_ ha <;> rfl

/-- Settles O33: by R80 law 7 the changed body has another checksum than the original. -/
theorem singleBitErrorDetected : Obligations.SingleBitErrorDetected := by
  intro s flag flag' code code' p p' before after x k i hlen hlen' hp hk hbody hbody' hi
  have hc : frameChecksum flag code p ≠ frameChecksum flag' code' p' := by
    rw [frameChecksum, frameChecksum, hbody, hbody']
    exact (crc8_ne_of_byte_ne before after (xor_twoPow_ne x hk)).symm
  exact ⟨_, exec_frame_of_wrongChecksum hi (by omega) hp hc, rfl, rfl, rfl⟩

/-- Settles O22: the operation looks at RX_PHASE and RX_RESULT only. -/
theorem rxParseEffect : Obligations.RxParseEffect := fun _ => ⟨execRxParse_of_free, execRxParse_of_taken⟩

/-- Settles O23: waiting has been said of RXSEQ, and a token writes the parser's registers only. -/
theorem rxStepTakesOneToken : Obligations.RxStepTakesOneToken := by
  refine fun s => ⟨fun hwait => rxStep_of_disabled ?_, fun tok rest u hp hrxs hu => ?_⟩
  · rcases hwait with hp | hrxs
    · simp [rxEnabled, rxBusy, hp]
    · simp [rxEnabled, hrxs]
  · rw [rxStep, rxStepWith_cons hp hrxs] at hu
    rcases rxToken_cases Config.hdrEarlyAbort tok { s with rxs := rest } with ⟨regs, h⟩ | h
    · rw [hu] at h
      cases h
      rfl
    · rw [hu] at h
      cases h

/-- Settles O24: an error token is looked at before the phase is. -/
theorem rxTransportErrorStep : Obligations.RxTransportErrorStep := fun _ _ _ hp hrxs => rxStepWith_cons hp hrxs

/-- Settles O25: each header byte is kept or ends the parse, as the setting says. -/
theorem rxHeaderByteSteps : Obligations.RxHeaderByteSteps := by
  refine ⟨fun _ => rfl, fun early s b rest hrxs => ⟨fun hp => ?_, fun hp => ?_⟩⟩
  · have hstep : rxStepWith early s = .next (rxHdr0 early b { s with rxs := rest }) :=
      (rxStepWith_cons (by simp [hp]) hrxs).trans (rxToken_hdr0 early b hp)
    exact ⟨fun h => hstep.trans (congrArg _ (rxHdr0_of_abort h _)),
      fun h => hstep.trans (congrArg _ (rxHdr0_of_goOn h _))⟩
  · have hstep : rxStepWith early s = .next (rxHdr1 early b { s with rxs := rest }) :=
      (rxStepWith_cons (by simp [hp]) hrxs).trans (rxToken_hdr1 early b hp)
    exact ⟨fun h => hstep.trans (congrArg _ (rxHdr1_of_abort h _)),
      fun h => hstep.trans (congrArg _ (rxHdr1_of_goOn h _))⟩

/-- Settles O26: the three tests in their order. -/
theorem rxHeaderCheckStep : Obligations.RxHeaderCheckStep := by
  intro s b rest hrxs hp
  have hstep : rxStep s = .next (rxHdr2 b { s with rxs := rest }) :=
    (rxStepWith_cons (by simp [hp]) hrxs).trans (rxToken_hdr2 _ b hp)
  exact hstep.trans (congrArg _ (rxHdr2_eq b _))

/-- Settles O27: the five fixed fields as each phase takes them. -/
theorem rxFixedFieldSteps : Obligations.RxFixedFieldSteps := by
  intro s b rest hrxs
  have hstep := fun (h : s.rx.phase ≠ .idle) => rxStepWith_cons (early := Config.hdrEarlyAbort) h hrxs
  refine ⟨fun hp => (hstep ?_).trans (rxToken_flag _ b hp), fun hp => (hstep ?_).trans (rxToken_codeLo _ b hp),
    fun hp => (hstep ?_).trans (rxToken_codeHi _ b hp), fun hp => (hstep ?_).trans (rxToken_lenLo _ b hp),
    fun hp => (hstep ?_).trans (rxToken_lenHi _ b hp)⟩
  all_goals simp [hp]

/-- Settles O28: the byte is written where RX_CNT says, if that index exists. -/
theorem rxPayloadStep : Obligations.RxPayloadStep := by
  intro s b rest hrxs hp
  have hstep : rxStep s = rxPayload b { s with rxs := rest } :=
    (rxStepWith_cons (by simp [hp]) hrxs).trans (rxToken_payload _ b hp)
  exact ⟨fun hcnt => ⟨_, hstep.trans (rxPayload_of_lt b hcnt), bufByte_write (s := s) rfl rfl, rfl⟩,
    fun hcnt => hstep.trans (rxPayload_of_end b hcnt)⟩

/-- Settles O29: the received byte is compared with RX_CRC, and nothing else decides. -/
theorem rxChecksumStep : Obligations.RxChecksumStep := by
  intro s b rest hrxs hp
  have hstep : rxStep s = .next (rxChecksum b { s with rxs := rest }) :=
    (rxStepWith_cons (by simp [hp]) hrxs).trans (rxToken_crc _ b hp)
  exact ⟨fun h => hstep.trans (congrArg _ (rxChecksum_of_eq h)),
    fun h => hstep.trans (congrArg _ (rxChecksum_of_ne h))⟩

/-- Settles O34: an idle parser takes no token of the frame. -/
theorem frameWaitsWithoutParse : Obligations.FrameWaitsWithoutParse := fun _ _ _ _ _ hp =>
  ⟨rxTokens_of_idle _ _ hp, rxTokens_of_idle _ _ hp⟩

/-- Settles O35: each field is cut out of the value, and R28 leaves the listed values only. -/
theorem rxStatusEffect : Obligations.RxStatusEffect := by
  intro s
  obtain ⟨hresult, hcause, hbusy, hzero, hcomp, hrec, hio⟩ := rxStatusValue_fields s
  refine ⟨rxStatusValue s, rfl, hresult, hcause, hbusy, hzero, hcomp, hrec, hio, ?_⟩
  rintro ⟨h, hinv⟩
  exact ((machineInv_iff h s).mp hinv).1.rxStatusValue_listed

/-- Settles O36: the operation looks at RX_RESULT only. -/
theorem rxHeadEffect : Obligations.RxHeadEffect := fun _ => ⟨execRxHead_of_frame, execRxHead_of_noFrame⟩

/-- Settles O37: the return from an outcome is the same whatever is held. -/
theorem rxReleaseEffect : Obligations.RxReleaseEffect := fun _ => rfl

end Sys2Proof
end

section
/-! SUPPORT. What the statements about payload access need: the three cases of a read at the cursor (R135), the payload
bytes a held frame still has behind the cursor, read one scalar after the other (R146), and what each turn makes of
the cursor (R140). -/

namespace Sys2Proof.Machine

/-! ### One read at the cursor (R135 to R139) -/

/-- The state after a read of `n` bytes that has answered `v` (R135). -/
def scalarRead (n : Nat) (v : Word) (s : State) : State :=
  { s with rx := { s.rx with cursor := s.rx.cursor + BitVec.ofNat 16 n }, rsp := s.rsp ++ [0#4 ++ v] }

theorem readAtCursor_of_value {n : Nat} {v : Word} {s : State} (hr : s.rx.result = .frame)
    (hn : s.rx.cursor.toNat + n ≤ s.rx.len.toNat) (hv : memRead s s.rx.cursor.toNat n = v) :
    readAtCursor n s = scalarRead n v s := by
  rw [readAtCursor_of_fits hr hn, hv]
  rfl

/-- R135: a command that reads `n` bytes at the cursor, where the bytes there have the value `v`. -/
theorem exec_read_cases {i : Instr} {n : Nat} {v : Word} {s : State} (hi : exec i s = .next (readAtCursor n s))
    (hv : memRead s s.rx.cursor.toNat n = v) :
    (s.rx.result ≠ .frame → exec i s = .next { s with rsp := s.rsp ++ [0x200000000#36] }) ∧
    (s.rx.result = .frame → s.rx.len.toNat < s.rx.cursor.toNat + n →
      exec i s = .next { s with rsp := s.rsp ++ [0x100000000#36] }) ∧
    (s.rx.result = .frame → s.rx.cursor.toNat + n ≤ s.rx.len.toNat → exec i s = .next (scalarRead n v s)) := by
  rw [hi]
  exact ⟨fun hr => congrArg _ (readAtCursor_of_noFrame hr), fun hr hn => congrArg _ (readAtCursor_of_short hr hn),
    fun hr hn => congrArg _ (readAtCursor_of_value hr hn hv)⟩

theorem memRead_one (s : State) (a : Nat) : memRead s a 1 = 0#24 ++ s.bufByte a :=
  assembleLE_one _

/-- The byte at the lower index is the low byte (R31, R137). -/
theorem memRead_two (s : State) (a : Nat) : memRead s a 2 = 0#16 ++ (s.bufByte (a + 1) ++ s.bufByte a) :=
  assembleLE_two _ _

/-- The bytes in rising order of significance (R31, R138). -/
theorem memRead_four (s : State) (a : Nat) : memRead s a 4 =
    s.bufByte (a + 3) ++ (s.bufByte (a + 2) ++ (s.bufByte (a + 1) ++ s.bufByte a)) :=
  assembleLE_four _ _ _ _

theorem execRxCursor_of_frame {s : State} (hr : s.rx.result = .frame) :
    execRxCursor s = .next (respond .ok (0#16 ++ s.rx.cursor) s) := by
  rw [← zext_half]
  simp [execRxCursor, hr]

theorem execRxCursor_of_noFrame {s : State} (hr : s.rx.result ≠ .frame) :
    execRxCursor s = .next (refuseCommand .noFrame s) := by
  simp [execRxCursor, hr]

/-! ### Scalars in a payload (R141 to R146) -/

/-- A scalar is read by the read of as many bytes as it has. -/
theorem exec_getter (x : Scalar) (s : State) : exec x.getter s = .next (readAtCursor x.put.length s) := by
  cases x <;> rfl

/-- Reading little-endian undoes writing little-endian (R31). -/
theorem assembleLE_put (x : Scalar) : BitVec.ofNat 32 (assembleLE x.put) = x.value := by
  cases x with
  | s8 v => exact (assembleLE_one v).trans (zext_byte v).symm
  | s16 v =>
    calc BitVec.ofNat 32 (assembleLE (bytesOfHalf v))
        = 0#16 ++ halfOfBytes (loByte v) (hiByte v) := assembleLE_two _ _
      _ = v.setWidth 32 := by rw [halfOfBytes_lo_hi, zext_half]
  | s32 v =>
    apply BitVec.eq_of_toNat_eq
    have := v.isLt
    simp only [Scalar.put, put32, Scalar.value, assembleLE, BitVec.toNat_ofNat, BitVec.extractLsb'_toNat,
      Nat.shiftRight_eq_div_pow]
    omega

theorem State.bufBytes_add (s : State) (a m n : Nat) :
    s.bufBytes a (m + n) = s.bufBytes a m ++ s.bufBytes (a + m) n := by
  simp [State.bufBytes, List.range_add, Function.comp_def, Nat.add_assoc]

/-- A frame is held and `p` is what its payload still has behind the cursor. -/
structure BytesLeft (p : List Byte) (s : State) : Prop where
  held : s.rx.result = .frame
  count : s.rx.cursor.toNat + p.length = s.rx.len.toNat
  bytes : s.bufBytes s.rx.cursor.toNat p.length = p

/-- A frame just delivered has its whole payload behind the cursor (R121). -/
theorem BytesLeft.of_deliverFrame (flag : Byte) (code : Half) {p : List Byte} (hlen : p.length ≤ 65535) (s : State) :
    BytesLeft p (deliverFrame { s with rx := frameRegs flag code p s.rx }) where
  held := rfl
  count := by simp [frameRegs, lengthField_toNat hlen]
  bytes := bufBytes_writeFrom (s := s) rfl

section Reads

variable {w p : List Byte} {s : State} (h : BytesLeft (w ++ p) s)
include h

theorem BytesLeft.fits : s.rx.cursor.toNat + w.length ≤ s.rx.len.toNat := by
  have hcount := h.count
  rw [List.length_append] at hcount
  omega

/-- The bytes split where the first read ends. -/
theorem BytesLeft.split : s.bufBytes s.rx.cursor.toNat w.length = w ∧
    s.bufBytes (s.rx.cursor.toNat + w.length) p.length = p := by
  have hbytes := h.bytes
  rw [List.length_append, State.bufBytes_add] at hbytes
  exact List.append_inj hbytes (State.bufBytes_length _ _ _)

theorem BytesLeft.readAtCursor_eq :
    readAtCursor w.length s = scalarRead w.length (BitVec.ofNat 32 (assembleLE w)) s :=
  readAtCursor_of_value h.held h.fits (by rw [memRead, h.split.1])

theorem BytesLeft.after_read (v : Word) : BytesLeft p (scalarRead w.length v s) := by
  have hfits := h.fits
  have hcount := h.count
  obtain ⟨-, hrest⟩ := h.split
  have hcursor : (scalarRead w.length v s).rx.cursor.toNat = s.rx.cursor.toNat + w.length := by
    have hlen := s.rx.len.isLt
    simp only [scalarRead, BitVec.toNat_add, BitVec.toNat_ofNat]
    omega
  refine ⟨h.held, ?_, ?_⟩
  · rw [hcursor, Nat.add_assoc, ← List.length_append]
    exact hcount
  · rw [hcursor]
    exact hrest

end Reads

/-- R146: the reads of scalars that stand behind the cursor, one after the other. -/
theorem BytesLeft.execAll_getters {xs : List Scalar} {s : State} (h : BytesLeft (putAll xs) s) :
    ∃ t, execAll (xs.map Scalar.getter) s = .next t ∧ t.rsp = s.rsp ++ xs.map (fun x => 0#4 ++ x.value) ∧
      t.rx.code = s.rx.code ∧ BytesLeft [] t := by
  induction xs generalizing s with
  | nil => exact ⟨s, rfl, (List.append_nil s.rsp).symm, rfl, h⟩
  | cons x xs ih =>
    have hread : exec x.getter s = .next (scalarRead x.put.length x.value s) := by
      rw [exec_getter, h.readAtCursor_eq, assembleLE_put]
    obtain ⟨t, hrun, hrsp, hcode, hdone⟩ := ih (h.after_read x.value)
    refine ⟨t, (execAll_cons_of_next hread _).trans hrun, ?_, hcode, hdone⟩
    rw [hrsp, List.map_cons, List.append_cons]
    rfl

section AtEnd

variable {s : State} (h : BytesLeft [] s)
include h

theorem BytesLeft.cursor_eq_len : s.rx.cursor = s.rx.len :=
  BitVec.eq_of_toNat_eq h.count

/-- With nothing left behind the cursor every read is truncated (R135). -/
theorem BytesLeft.readAtCursor_truncated {n : Nat} (hn : 0 < n) :
    readAtCursor n s = { s with rsp := s.rsp ++ [0x100000000#36] } :=
  readAtCursor_of_short h.held (by rw [h.cursor_eq_len]; omega)

end AtEnd

/-! ### What a turn makes of the cursor (R140) -/

/-- The parser leaves the cursor alone or delivers a frame, which ends a parse. -/
def CursorKeptOrDelivered (s t : State) : Prop :=
  t.rx.cursor = s.rx.cursor ∨ (t.rx.cursor = 0 ∧ t.rx.result = .frame ∧ t.rx.phase = .idle ∧ s.rx.phase ≠ .idle)

theorem CursorKeptOrDelivered.forward {s t : State} (h : CursorKeptOrDelivered s t) :
    s.rx.cursor.toNat ≤ t.rx.cursor.toNat ∨ (t.rx.cursor = 0 ∧ t.rx.result = .frame ∧ s.rx.phase ≠ .idle) := by
  rcases h with hkept | ⟨hcursor, hresult, -, hbusy⟩
  · exact .inl (by rw [hkept])
  · exact .inr ⟨hcursor, hresult, hbusy⟩

/-- Of all tokens only a right checksum byte moves the cursor (R121). -/
theorem rxToken_cursor {early : Bool} {tok : Token} {s t : State} (hs : s.rx.phase ≠ .idle)
    (ht : rxToken early tok s = .next t) : CursorKeptOrDelivered s t := by
  cases tok with
  | ioerr e =>
    cases ht
    exact .inl (raise_rx_cursor _ s)
  | byte b =>
    cases hp : s.rx.phase with
    | idle => exact absurd hp hs
    | crc =>
      rw [rxToken_crc early b hp] at ht
      cases ht
      by_cases hb : b = s.rx.crc
      · rw [rxChecksum_of_eq hb]
        exact .inr ⟨rfl, rfl, rfl, hs⟩
      · rw [rxChecksum_of_ne hb]
        exact .inl rfl
    | hdr0 =>
      rw [rxToken_hdr0 early b hp, rxHdr0] at ht
      split at ht <;> cases ht <;> exact .inl rfl
    | hdr1 =>
      rw [rxToken_hdr1 early b hp, rxHdr1] at ht
      split at ht <;> cases ht <;> exact .inl rfl
    | hdr2 =>
      rw [rxToken_hdr2 early b hp, rxHdr2] at ht
      split_ifs at ht <;> cases ht <;> exact .inl rfl
    | payload =>
      rw [rxToken_payload early b hp, rxPayload] at ht
      split at ht <;> cases ht
      exact .inl rfl
    | flag | codeLo | codeHi | lenLo | lenHi =>
      simp only [rxToken, rxByte, hp] at ht
      cases ht
      exact .inl rfl

/-- Some tokens offered to the parser: behind a delivery it takes none (R107, R129). -/
theorem rxTokens_cursor {early : Bool} {ts : List Token} {s t : State} (ht : rxTokens early ts s = .next t) :
    CursorKeptOrDelivered s t := by
  induction ts generalizing s with
  | nil =>
    cases ht
    exact .inl rfl
  | cons tok ts ih =>
    by_cases hs : s.rx.phase = .idle
    · rw [rxTokens_of_idle early _ hs] at ht
      cases ht
      exact .inl rfl
    · rcases rxToken_cases early tok s with ⟨regs, hu⟩ | hu
      · rw [rxTokens_cons ts hs hu] at ht
        rcases ih ht with hkept | ⟨hcursor, hresult, hidle, -⟩
        · rcases rxToken_cursor hs hu with hu' | ⟨hcursor, hresult, hidle, -⟩
          · exact .inl (hkept.trans hu')
          · rw [rxTokens_of_idle early ts hidle] at ht
            cases ht
            exact .inr ⟨hcursor, hresult, hidle, hs⟩
        · exact .inr ⟨hcursor, hresult, hidle, hs⟩
      · rw [rxTokens_cons_fault ts hs hu] at ht
        cases ht

/-- A command moves the cursor forward or not at all: a read stays inside the payload (R135). -/
theorem CommandParserEffect.cursor_le {rx rx' : RxRegs} (he : CommandParserEffect rx rx') :
    rx.cursor.toNat ≤ rx'.cursor.toNat := by
  cases he with
  | keeps | starts | releases => exact le_rfl
  | reads n hr hn =>
    have hlen := rx.len.isLt
    simp only [BitVec.toNat_add, BitVec.toNat_ofNat]
    omega

theorem cmdStep_cursor_le {s t : State} (ht : cmdStep s = .next t) : s.rx.cursor.toNat ≤ t.rx.cursor.toNat := by
  unfold cmdStep at ht
  split at ht
  · cases ht
    exact le_rfl
  · next w rest hcmd =>
    obtain ⟨acc, tx, rx, rsp, hrun, heffect, -⟩ := runCommand_effect w { s with cmd := rest }
    rw [ht] at hrun
    cases hrun
    exact heffect.cursor_le

/-- No event of the environment but reset touches the parser's registers (R170). -/
theorem envStep_rx {e : EnvEvent} (he : e ≠ .reset) (s : State) : (envStep e s).rx = s.rx := by
  cases e with
  | reset => exact absurd rfl he
  | _ => rfl

end Sys2Proof.Machine

namespace Sys2Proof

open Sys2Proof.Machine

/-! ### The statements of the family -/

/-- Settles O42: only RXSEQ's delivery sets the cursor back, and a command's read never wraps it. -/
theorem cursorOnlyMovesForward : Obligations.CursorOnlyMovesForward := by
  intro s t turn hturn ht
  match turn with
  | .agent .cmd => exact .inl (cmdStep_cursor_le ht)
  | .agent .txseq =>
    cases ht
    exact .inl (by rw [txStep_frame]; exact le_rfl)
  | .agent .rxseq =>
    have hmoved : CursorKeptOrDelivered _ t := rxTokens_cursor ((rxStep_eq_rxTokens s).symm.trans ht)
    exact hmoved.forward
  | .frame =>
    obtain ⟨n, hn⟩ := frameStep_eq_rxTokens s
    have hmoved : CursorKeptOrDelivered _ t := rxTokens_cursor (hn.symm.trans ht)
    exact hmoved.forward
  | .env e =>
    cases ht
    exact .inl (by rw [envStep_rx fun h => hturn (congrArg _ h)])

/-- Settles O43: the delivered payload is the scalars' bytes, and each read takes the bytes of one scalar off its
front. -/
theorem scalarRoundTrip : Obligations.ScalarRoundTrip := by
  intro s code xs hp hlen
  have hframe := exec_frame_of_rightChecksum (.inl rfl) hlen hp (rfl : _ = frameChecksum 0x00 code (putAll xs))
  obtain ⟨t, hrun, hrsp, hcode, hdone⟩ := (BytesLeft.of_deliverFrame 0x00 code hlen s).execAll_getters
  refine ⟨t, (execAll_cons_of_next hframe _).trans hrun, hrsp, hcode, hdone.cursor_eq_len, ?_⟩
  simp only [List.forall_mem_cons, List.not_mem_nil, false_imp_iff, implies_true, and_true]
  exact ⟨congrArg _ (hdone.readAtCursor_truncated Nat.one_pos), congrArg _ (hdone.readAtCursor_truncated Nat.two_pos),
    congrArg _ (hdone.readAtCursor_truncated (Nat.succ_pos 3))⟩

/-- Settles O38: the read at the cursor of one byte. -/
theorem rxGet8Effect : Obligations.RxGet8Effect := fun s => exec_read_cases rfl (memRead_one s _)

/-- Settles O39: the read at the cursor of two bytes. -/
theorem rxGet16Effect : Obligations.RxGet16Effect := fun s => exec_read_cases rfl (memRead_two s _)

/-- Settles O40: the read at the cursor of four bytes. -/
theorem rxGet32Effect : Obligations.RxGet32Effect := fun s => exec_read_cases rfl (memRead_four s _)

/-- Settles O41: the command looks at RX_RESULT and RX_CURSOR only. -/
theorem rxCursorEffect : Obligations.RxCursorEffect := fun _ => ⟨execRxCursor_of_frame, execRxCursor_of_noFrame⟩

end Sys2Proof
end

section
/-! SUPPORT. What the statements about the exceptional outcomes need: which registers a command keeps (R170), RX.PARSE
as the only command that writes RX_PHASE (R106), and that only a parse or a command writes the parser's registers
(R163). -/

namespace Sys2Proof.Machine

/-! ### What CMD may write (R170) -/

/-- Of the parser's registers a command leaves those that only a parse fills, RX_BUF among them. -/
theorem CommandParserEffect.keeps_parsed {rx rx' : RxRegs} (he : CommandParserEffect rx rx') :
    rx'.h0 = rx.h0 ∧ rx'.h1 = rx.h1 ∧ rx'.code = rx.code ∧ rx'.len = rx.len ∧ rx'.cnt = rx.cnt ∧ rx'.crc = rx.crc ∧
      rx'.buf = rx.buf := by
  cases he with
  | keeps | starts | releases | reads => exact ⟨rfl, rfl, rfl, rfl, rfl, rfl, rfl⟩

/-- A command writes the result and the error registers to their cleared values only (R106, R125). -/
theorem CommandParserEffect.keeps_or_clears {rx rx' : RxRegs} (he : CommandParserEffect rx rx') :
    (rx'.result = rx.result ∨ rx'.result = .none) ∧ (rx'.cause = rx.cause ∨ rx'.cause = .noCause) ∧
      (rx'.errComputed = rx.errComputed ∨ rx'.errComputed = 0) ∧
      (rx'.errReceived = rx.errReceived ∨ rx'.errReceived = 0) ∧ (rx'.errIo = rx.errIo ∨ rx'.errIo = 0) := by
  cases he with
  | keeps | reads => exact ⟨.inl rfl, .inl rfl, .inl rfl, .inl rfl, .inl rfl⟩
  | starts => exact ⟨.inl rfl, .inr rfl, .inr rfl, .inr rfl, .inr rfl⟩
  | releases => exact ⟨.inr rfl, .inr rfl, .inr rfl, .inr rfl, .inr rfl⟩

/-- Only a read of a held frame moves the cursor (R135). -/
theorem CommandParserEffect.cursor_of_noFrame {rx rx' : RxRegs} (he : CommandParserEffect rx rx')
    (hr : rx.result ≠ .frame) : rx'.cursor = rx.cursor := by
  cases he with
  | keeps | starts | releases => rfl
  | reads n hframe => exact absurd hframe hr

/-- TX.BUILD does not write TX_CRC (R91). -/
theorem CommandBuilderEffect.crc_eq {tx tx' : TxRegs} (he : CommandBuilderEffect tx tx') : tx'.crc = tx.crc := by
  cases he with
  | keeps | builds => rfl

@[simp] theorem readAtCursor_rx_phase (n : Nat) (s : State) : (readAtCursor n s).rx.phase = s.rx.phase := by
  rcases readAtCursor_cases n s with ⟨-, h⟩ | ⟨-, -, h⟩ | ⟨-, -, h⟩ <;> rw [h] <;> rfl

/-- RX.PARSE is the only command that writes RX_PHASE, and in a parse it is refused (R106). -/
theorem exec_command_rx_phase_of_busy {i : Instr} {s t : State} (hi : i.isCommand = true) (hs : s.rx.phase ≠ .idle)
    (ht : exec i s = .next t) : t.rx.phase = s.rx.phase := by
  cases i with
  | frameReq | frameRsp => cases hi
  | rxParse =>
    rw [exec, execRxParse_of_taken (.inl hs)] at ht
    cases ht
    rfl
  | rxGet8 | rxGet16 | rxGet32 =>
    cases ht
    exact readAtCursor_rx_phase _ s
  | txBuild | rxHead | rxCursor =>
    simp only [exec, execTxBuild, execRxHead, execRxCursor] at ht
    split at ht <;> cases ht <;> rfl
  | crcClear | crcUpdate | crcRead | txStatus | rxStatus | rxRelease =>
    cases ht
    rfl

theorem runCommand_rx_phase_of_busy {w : PortWord} {s t : State} (hs : s.rx.phase ≠ .idle)
    (ht : runCommand w s = .next t) : t.rx.phase = s.rx.phase := by
  cases hw : decodeCmd w with
  | ok i =>
    rw [runCommand_of_ok hw] at ht
    exact exec_command_rx_phase_of_busy (decodeCmd_isCommand hw) hs ht
  | error e =>
    rw [runCommand_of_error hw] at ht
    cases ht
    rfl

/-! ### What leaves a held outcome alone (R163) -/

/-- No event of the environment but reset selects other free contents of RX_BUF (log 2). -/
theorem envStep_bufEpoch {e : EnvEvent} (he : e ≠ .reset) (s : State) : (envStep e s).bufEpoch = s.bufEpoch := by
  cases e with
  | reset => exact absurd rfl he
  | _ => rfl

/-- With no parse running, tokens offered to the parser write none of its registers (R107). -/
theorem rxTokens_keeps_idle {early : Bool} {ts : List Token} {s t : State} (hs : s.rx.phase = .idle)
    (ht : rxTokens early ts s = .next t) : t.rx = s.rx ∧ t.bufEpoch = s.bufEpoch := by
  rw [rxTokens_of_idle early ts hs] at ht
  cases ht
  exact ⟨rfl, rfl⟩

end Sys2Proof.Machine

namespace Sys2Proof

open Sys2Proof.Machine

/-! ### The statements of the family -/

/-- Settles O47: each register is one that the command's effect keeps or clears; both phases stay while their sequencer
is busy, since the command that would write them is refused. -/
theorem commandsWriteOnlyTheirRegisters : Obligations.CommandsWriteOnlyTheirRegisters := by
  intro w s t ht
  have htx := fun hs => runCommand_tx_of_busy hs ht
  have hphase := fun hs => runCommand_rx_phase_of_busy hs ht
  obtain ⟨acc, tx, rx, rsp, hrun, hparser, hbuilder⟩ := runCommand_effect w s
  rw [ht] at hrun
  cases hrun
  obtain ⟨hh0, hh1, hcode, hlen, hcnt, hcrc, hbuf⟩ := hparser.keeps_parsed
  obtain ⟨hresult, hcause, hcomputed, hreceived, hio⟩ := hparser.keeps_or_clears
  have hbytes := fun a => State.bufByte_congr (s := { s with crcAcc := acc, tx := tx, rx := rx, rsp := rsp }) (t := s)
    (congrArg (Memory.read · a) hbuf) rfl
  exact ⟨hbuilder.crc_eq, htx, hh0, hh1, hcode, hlen, hcnt, hcrc, hbytes, hphase, hresult, hcause, hcomputed, hreceived,
    hio, hparser.cursor_of_noFrame, rfl, rfl, rfl, rfl, rfl⟩

/-- Settles O48, turn by turn: RXSEQ takes no token in R_IDLE, and neither TXSEQ nor an event but reset writes the
parser's registers. -/
theorem heldOutcomeStays : Obligations.HeldOutcomeStays := by
  intro s t turn hs hcmd hreset ht
  match turn with
  | .agent .cmd => exact absurd rfl hcmd
  | .agent .txseq =>
    cases ht
    rw [txStep_frame]
    exact ⟨rfl, rfl⟩
  | .agent .rxseq =>
    exact rxTokens_keeps_idle (s := { s with rxs := s.rxs.drop 1 }) hs ((rxStep_eq_rxTokens s).symm.trans ht)
  | .frame =>
    obtain ⟨n, hn⟩ := frameStep_eq_rxTokens s
    exact rxTokens_keeps_idle (s := { s with rxs := s.rxs.drop n }) hs (hn.symm.trans ht)
  | .env e =>
    cases ht
    have he : e ≠ .reset := fun h => hreset (congrArg _ h)
    exact ⟨envStep_rx he s, envStep_bufEpoch he s⟩

/-- Settles O45: the failures one by one; with the early setting a wrong header byte is written before it is raised
(R109, R110). -/
theorem raiseEntrySequence : Obligations.RaiseEntrySequence := fun s =>
  ⟨rfl, rfl, rfl, fun _ _ => rfl, fun _ => rfl, fun _ hb => rxHdr0_of_abort ⟨rfl, hb⟩ s,
    fun _ hb => rxHdr1_of_abort ⟨rfl, hb⟩ s⟩

/-- Settles O49: RX.RELEASE clears the result, so RX.PARSE then finds the parser free (R106, R125). -/
theorem releaseMakesParserReady : Obligations.ReleaseMakesParserReady := by
  intro s hs hr
  have hrelease : exec .rxRelease s = .next (respond .ok 0 (releaseOutcome s)) := rfl
  have hparse : exec .rxParse (respond .ok 0 (releaseOutcome s)) = _ := execRxParse_of_free hs rfl
  have hbusy : exec .rxParse s = .next (refuseCommand .busy s) := execRxParse_of_taken (.inr hr)
  refine ⟨⟨_, (execAll_cons_of_next hrelease _).trans (execAll_cons_of_next hparse []), rfl, ?_⟩,
    execAll_cons_of_next hbusy []⟩
  exact List.append_assoc s.rsp _ _

/-- Settles O51: TXSEQ's step by its cases, RXSEQ's by the part of the state it has to do with. -/
theorem sequencersWriteOnlyTheirOwn : Obligations.SequencersWriteOnlyTheirOwn := by
  intro s
  have hrx : ∀ t, rxStep s = .next t → t = { s with rx := t.rx, rxs := t.rxs } := fun _ ht => rxStep_frame ht
  rcases txStep_cases s with h | ⟨b, last, regs, p, h, hcode, hlen, -⟩
  · rw [h]
    exact ⟨rfl, rfl, rfl, hrx⟩
  · rw [h]
    exact ⟨rfl, hcode, hlen, hrx⟩

end Sys2Proof
end

section
/-! SUPPORT. What the statements about reset need: `rst` on the agenda as one step (R175, R176), and what the block
answers when its registers are at their reset values, from a run's start or after `rst` alike (R177). -/

namespace Sys2Proof.Machine

/-! ### `rst` (R175) -/

theorem step_of_agenda_reset {s : State} {later : List Turn} (h : s.agenda = .env .reset :: later) :
    step s = .next (assertReset { s with agenda := later }) :=
  step_agenda h

/-! ### An idle block and its answers (R177) -/

theorem agents_disabled_of_idle {s : State} (hcmd : s.cmd = []) (htx : s.tx.phase = .idle) (hrx : s.rx.phase = .idle) :
    ∀ a, agentEnabled a s = false := by
  rw [agents_disabled_iff]
  refine ⟨?cmd, ?txseq, ?rxseq⟩
  case cmd => simp [cmdEnabled, hcmd]
  case txseq => simp [txEnabled, txBusy, htx]
  case rxseq => simp [rxEnabled, rxBusy, hrx]

theorem exec_txStatus_of_idle {s : State} (h : s.tx.phase = .idle) :
    exec .txStatus s = .next { s with rsp := s.rsp ++ [0x000000000#36] } := by
  rw [txStatusEffect s, if_pos h]
  rfl

theorem rxStatusValue_of_reset {s : State} (h : s.rx = RxRegs.reset) : rxStatusValue s = 0#32 := by
  have hbusy : rxBusy s = false := by rw [rxBusy, h]; rfl
  rw [rxStatusValue_of_registers hbusy (congrArg _ h) (congrArg _ h) (congrArg _ h) (congrArg _ h) (congrArg _ h)]
  rfl

theorem exec_rxStatus_of_reset {s : State} (h : s.rx = RxRegs.reset) :
    exec .rxStatus s = .next { s with rsp := s.rsp ++ [0x000000000#36] } := by
  have hanswer : exec .rxStatus s = .next (respond .ok (rxStatusValue s) s) := rfl
  rw [hanswer, rxStatusValue_of_reset h]
  rfl

theorem exec_crcRead_of_zero {s : State} (h : s.crcAcc = 0x00) :
    exec .crcRead s = .next { s with rsp := s.rsp ++ [0x000000000#36] } := by
  rw [exec_crcRead, h]
  rfl

end Sys2Proof.Machine

namespace Sys2Proof

open Sys2Proof.Machine

/-! ### The statements of the family -/

/-- Settles O53: `assertReset` puts in the reset records and writes none of the streams. -/
theorem rstResetsRegisters : Obligations.RstResetsRegisters :=
  ⟨fun _ _ hagenda => ⟨_, step_of_agenda_reset hagenda, rfl, rfl, rfl, rfl, rfl, rfl, rfl, rfl⟩, rfl, rfl, rfl⟩

/-- Settles O54: both sequencers are idle with `cmd` empty, and the answers show registers that hold 0 and no frame. -/
theorem firstFactsAfterReset : Obligations.FirstFactsAfterReset :=
  ⟨agents_disabled_of_idle rfl rfl rfl, exec_txStatus_of_idle rfl, exec_rxStatus_of_reset rfl,
    exec_crcRead_of_zero rfl, execRxHead_of_noFrame (s := State.reset) (by decide)⟩

end Sys2Proof
end
